-- ==== Sys2Proof/Word.lean ====
section
/-!
DEFINITION. The bit vectors of the block's ports (spec/10_state.md R22 to R24). Bit 0 is the least
significant bit of a value and `{a, b}` puts `a` in the high bits (spec/00_scope.md R7), which is
`BitVec`'s own numbering and `++`. `sint` is `BitVec.toInt` and `uint` is `BitVec.toNat` (R8).
-/

namespace Sys2Proof

/-- A raw sample or an output of the converter: `SAMPLE_W` and `OUT_W` are 16 (00 R6). -/
abbrev Word := BitVec 16

/-- The CTRL_REG4 byte: `CTRL4_W` is 8 (00 R6). -/
abbrev Byte := BitVec 8

/-- A 2-bit configuration code: `FS_W` and `RES_W` are 2 (00 R6). -/
abbrev Code := BitVec 2

end Sys2Proof
end

