-- ==== Sys2Proof/Config.lean ====
section
/-!
DEFINITION. The named alternatives of the configuration fields, the block's one error kind, and the
one parameter the spec leaves open.
-/

namespace Sys2Proof

/-- The Full-Scale Range variants ±2g, ±4g, ±8g, ±16g (00 R11, 40 R81). -/
inductive FullScale where
  | g2
  | g4
  | g8
  | g16
deriving DecidableEq, Repr

/-- The Resolution Mode variants: 12, 10 and 8 significant bits (00 R11, 40 R87). -/
inductive ResMode where
  | highResolution
  | normal
  | lowPower
deriving DecidableEq, Repr

/-- The configuration fields whose decode could meet a pattern that is no variant. Only `resMode`
ever does: every Full-Scale pattern is a variant (60 R140, 40 R81). -/
inductive ConfigField where
  | resMode
  | fullScale
deriving DecidableEq, Repr

/-- The block's one error kind (60 R140), with the field and the pattern that caused it. -/
inductive DecodeError where
  | unrecognizedBitPattern (field : ConfigField) (pattern : Code)
deriving DecidableEq, Repr

/-- `T_PROP`, the input-to-output propagation delay. OPEN in the spec (00 R6, 92 D18), so it has no
value here, and no rule reads it (70 R165). Log entry 6. -/
opaque Config.tProp : Nat

end Sys2Proof
end

