-- ==== Sys2Proof/Machine/Operands.lean ====
section
/-!
DEFINITION. The operands of a conversion and the configuration fields: the sample field and its sign
extension (spec/30_encoding.md R63), the sensitivity table (R64, 40 R84), the resolution-mode decode
(40 R87) and the Full-Scale decode and encode (40 R80 to R82).
-/

namespace Sys2Proof.Machine

/-- `sext_16(v)` (00 R9). -/
def sext16 {n : Nat} (v : BitVec n) : Word :=
  v.signExtend 16

/-- `to_bits_16(i)` (00 R9). -/
def toBits16 (i : Int) : Word :=
  BitVec.ofInt 16 i

/-- `N(mode)`, the significant bits of a sample (00 R6, 40 R87). -/
def sigBits (m : ResMode) : Nat :=
  match m with
  | .highResolution => 12
  | .normal => 10
  | .lowPower => 8

/-- `S(mode)`, the padding bits below the sample, which is the shift amount (00 R6, 40 R88). -/
def padBits (m : ResMode) : Nat :=
  match m with
  | .highResolution => 4
  | .normal => 6
  | .lowPower => 8

/-- `DecRes(r)` (40 R87). -/
def decRes (r : Code) : Except DecodeError ResMode :=
  if r = 0b00#2 then .ok .normal
  else if r = 0b01#2 then .ok .highResolution
  else if r = 0b10#2 then .ok .lowPower
  else .error (.unrecognizedBitPattern .resMode r)

/-- The sample operand `d = sext_16(raw[15 : S(m)])` (30 R63, 41 R100, R101). -/
def sampleOperand (m : ResMode) (raw : Word) : Word :=
  sext16 (raw.extractLsb' (padBits m) (sigBits m))

/-- The unshifted code of a Full-Scale variant (40 R81). -/
def fsCode (v : FullScale) : Code :=
  match v with
  | .g2 => 0b00#2
  | .g4 => 0b01#2
  | .g8 => 0b10#2
  | .g16 => 0b11#2

/-- The Full-Scale variant of a code; every code has one (40 R81). -/
def fsVariant (c : Code) : FullScale :=
  if c = 0b00#2 then .g2
  else if c = 0b01#2 then .g4
  else if c = 0b10#2 then .g8
  else .g16

/-- `FS_MASK`, the Full-Scale field of CTRL_REG4 (00 R5). -/
def fsMask : Byte :=
  0b0011_0000#8

/-- The Full-Scale field decode `DECFS`: mask, shift down to bit 0, keep two bits (40 R80). -/
def decFs (b : Byte) : Code :=
  ((b &&& fsMask) >>> 4).extractLsb' 0 2

/-- `ENC_FS(v)`: the code, not shifted into its register position (40 R82). -/
def encFs (v : FullScale) : Code :=
  fsCode v

/-- `ENC_FS_POS(v)`: the code in its register position (40 R82). -/
def encFsPos (v : FullScale) : Byte :=
  (fsCode v).zeroExtend 8 <<< 4

/-- The hardwired sensitivity table `K`, in counts of 0.001 g per digit, the same in every resolution
mode (10 R25, 40 R84, R86). -/
def sensK (v : FullScale) : Nat :=
  match v with
  | .g2 => 1
  | .g4 => 2
  | .g8 => 4
  | .g16 => 12

/-- The document's sensitivity constants, in g per digit (40 R84, 92 D8). -/
def sensitivity (v : FullScale) : Rat :=
  match v with
  | .g2 => 1 / 1000
  | .g4 => 2 / 1000
  | .g8 => 4 / 1000
  | .g16 => 12 / 1000

end Sys2Proof.Machine
end

