-- ==== Sys2Proof/Machine/Flags.lean ====
section
/-!
DEFINITION. The one status output, `err` (spec/10_state.md R26). The block has no other flag.
-/

namespace Sys2Proof.Machine

/-- `err` is 1 exactly when `res_mode = 11` (60 R141). -/
def errFlag (resMode : Code) : Bool :=
  resMode == 0b11#2

end Sys2Proof.Machine
end

