-- ==== Sys2Proof/Syntax.lean ====
section
/-!
DEFINITION. The operations of the block, one constructor per row of spec/opcode_table.json
(30 R65). Each operand carries its port's width, so no term of this type is ill formed: every `raw`
word, every `fs` code and every CTRL_REG4 byte is legal (30 R66).
-/

namespace Sys2Proof

/-- One evaluation: a conversion of the sample `raw` under one value of `cfg`, or a decode of the
Full-Scale field of a CTRL_REG4 byte. -/
inductive Instr where
  | convHrG2 (raw : Word)
  | convHrG4 (raw : Word)
  | convHrG8 (raw : Word)
  | convHrG16 (raw : Word)
  | convNmG2 (raw : Word)
  | convNmG4 (raw : Word)
  | convNmG8 (raw : Word)
  | convNmG16 (raw : Word)
  | convLpG2 (raw : Word)
  | convLpG4 (raw : Word)
  | convLpG8 (raw : Word)
  | convLpG16 (raw : Word)
  | convRsvd (fs : Code) (raw : Word)
  | decfs (byte : Byte)
deriving DecidableEq, Repr

end Sys2Proof
end

