-- ==== Sys2Proof/WellFormed.lean ====
section
/-!
DEFINITION. What the outside hands to the block before its widths are checked, and the checks:
evaluation vectors as bytes, and the assembler lines of spec/30_encoding.md R68 with number
literals. An `Instr` needs no check (see Syntax.lean).
-/

namespace Sys2Proof

/-- The two input formats: the converter's V20 vector (30 R61) and the Full-Scale field decoder's
CTRL4 byte (30 R62). -/
inductive Port where
  | v20
  | ctrl4
deriving DecidableEq, Repr

/-- One evaluation vector as the testbench holds it: the format it belongs to and its bytes, lowest
bits first. DESIGN CHOICE: the spec writes V20 as a 20-bit number and gives it no bytes
(log entry 4). -/
structure Stimulus where
  port : Port
  bytes : List Byte
deriving DecidableEq, Repr

/-- A V20 vector is three bytes whose top four bits are zero, since it has 20 bits (30 R61); a CTRL4
vector is one byte (30 R62). -/
def Stimulus.wf (v : Stimulus) : Bool :=
  match v.port, v.bytes with
  | .v20, [_, _, b2] => b2.extractLsb' 4 4 == 0#4
  | .v20, _ => false
  | .ctrl4, [_] => true
  | .ctrl4, _ => false

/-- An assembler line (30 R68), its operands still numbers. -/
inductive AsmLine where
  | conv (mode : ResMode) (scale : FullScale) (raw : Nat)
  | rsvd (fs : Nat) (raw : Nat)
  | decfs (byte : Nat)
  | toPhysical (raw : Nat) (scale : FullScale)
deriving DecidableEq, Repr

/-- The literals fit their fields: 16 bits for a raw word, 2 for a code, 8 for a byte (30 R68). -/
def AsmLine.wf (l : AsmLine) : Bool :=
  match l with
  | .conv _ _ raw => decide (raw < 65536)
  | .rsvd fs raw => decide (fs < 4) && decide (raw < 65536)
  | .decfs byte => decide (byte < 256)
  | .toPhysical raw _ => decide (raw < 65536)

end Sys2Proof
end

