-- ==== Sys2Proof/Decode.lean ====
section
/-!
DEFINITION. From bits to an operation and back (spec/30_encoding.md R60 to R62, R65, R66): the
decoders of the two formats, the byte-level decoder, which rejects by name, the encoder, the
assembler of R68, and the host's reading of a table word.
-/

namespace Sys2Proof

/-- Why bytes are no evaluation vector. -/
inductive Reject where
  /-- The number of bytes is not the format's. -/
  | wrongLength (port : Port) (bytes : Nat)
  /-- Bits above the vector's 20 are set. -/
  | bitsAboveVector (bits : BitVec 4)
deriving DecidableEq, Repr

/-- Choose by the Full-Scale code: 00, 01, 10, 11 (30 R65, 40 R81). -/
def byFsCode (fs : Code) (op00 op01 op10 op11 : Instr) : Instr :=
  if fs = 0b00#2 then op00
  else if fs = 0b01#2 then op01
  else if fs = 0b10#2 then op10
  else op11

/-- The operation map (30 R65): the sixteen values of `cfg` all select an operation, `res_mode` = 11 the
reserved one (30 R66). -/
def selectOp (resMode fs : Code) (raw : Word) : Instr :=
  if resMode = 0b00#2 then
    byFsCode fs (.convNmG2 raw) (.convNmG4 raw) (.convNmG8 raw) (.convNmG16 raw)
  else if resMode = 0b01#2 then
    byFsCode fs (.convHrG2 raw) (.convHrG4 raw) (.convHrG8 raw) (.convHrG16 raw)
  else if resMode = 0b10#2 then
    byFsCode fs (.convLpG2 raw) (.convLpG4 raw) (.convLpG8 raw) (.convLpG16 raw)
  else .convRsvd fs raw

/-- The V20 vector `{cfg, raw}` with `cfg = {res_mode, fs}`: `res_mode` in bits 19:18, `fs` in 17:16,
`raw` in 15:0 (30 R60, R61). -/
def decodeV20 (v : BitVec 20) : Instr :=
  selectOp (v.extractLsb' 18 2) (v.extractLsb' 16 2) (v.extractLsb' 0 16)

/-- The CTRL4 byte. Total: no value of `ctrl4_in` is reserved (30 R62, R65). -/
def decodeCtrl4 (b : Byte) : Instr :=
  .decfs b

/-- The 20 bits in three bytes, the first byte lowest. -/
def joinV20 (b0 b1 b2 : Byte) : BitVec 20 :=
  b2.extractLsb' 0 4 ++ (b1 ++ b0)

/-- The decoder of evaluation vectors as bytes. -/
def decode (v : Stimulus) : Except Reject Instr :=
  match v.port, v.bytes with
  | .v20, [b0, b1, b2] =>
    if b2.extractLsb' 4 4 = 0#4 then .ok (decodeV20 (joinV20 b0 b1 b2))
    else .error (.bitsAboveVector (b2.extractLsb' 4 4))
  | .ctrl4, [b] => .ok (decodeCtrl4 b)
  | port, bytes => .error (.wrongLength port bytes.length)

/-- The byte with the vector's top four bits low and zeros above them. -/
def topByte (bits : BitVec 4) : Byte :=
  0#4 ++ bits

/-- A V20 vector as bytes. -/
def v20Stimulus (v : BitVec 20) : Stimulus :=
  { port := .v20, bytes := [v.extractLsb' 0 8, v.extractLsb' 8 8, topByte (v.extractLsb' 16 4)] }

/-- A CTRL4 byte as a vector. -/
def ctrl4Stimulus (b : Byte) : Stimulus :=
  { port := .ctrl4, bytes := [b] }

/-- The configuration word `cfg = {res_mode, fs}` (30 R60). -/
def cfgWord (resMode fs : Code) : BitVec 4 :=
  resMode ++ fs

/-- The V20 vector of a configuration word and a raw word, `V = {cfg, raw}` (30 R61). -/
def v20 (cfg : BitVec 4) (raw : Word) : BitVec 20 :=
  cfg ++ raw

/-- The encoder, from the operation map of 30 R65. -/
def encode (i : Instr) : Stimulus :=
  match i with
  | .convNmG2 raw => v20Stimulus (v20 0b0000#4 raw)
  | .convNmG4 raw => v20Stimulus (v20 0b0001#4 raw)
  | .convNmG8 raw => v20Stimulus (v20 0b0010#4 raw)
  | .convNmG16 raw => v20Stimulus (v20 0b0011#4 raw)
  | .convHrG2 raw => v20Stimulus (v20 0b0100#4 raw)
  | .convHrG4 raw => v20Stimulus (v20 0b0101#4 raw)
  | .convHrG8 raw => v20Stimulus (v20 0b0110#4 raw)
  | .convHrG16 raw => v20Stimulus (v20 0b0111#4 raw)
  | .convLpG2 raw => v20Stimulus (v20 0b1000#4 raw)
  | .convLpG4 raw => v20Stimulus (v20 0b1001#4 raw)
  | .convLpG8 raw => v20Stimulus (v20 0b1010#4 raw)
  | .convLpG16 raw => v20Stimulus (v20 0b1011#4 raw)
  | .convRsvd fs raw => v20Stimulus (v20 (cfgWord 0b11#2 fs) raw)
  | .decfs b => ctrl4Stimulus b

/-- The operation `CONV.<MODE>.<FS> <raw>` (30 R68). -/
def convInstr (mode : ResMode) (scale : FullScale) (raw : Word) : Instr :=
  match mode, scale with
  | .highResolution, .g2 => .convHrG2 raw
  | .highResolution, .g4 => .convHrG4 raw
  | .highResolution, .g8 => .convHrG8 raw
  | .highResolution, .g16 => .convHrG16 raw
  | .normal, .g2 => .convNmG2 raw
  | .normal, .g4 => .convNmG4 raw
  | .normal, .g8 => .convNmG8 raw
  | .normal, .g16 => .convNmG16 raw
  | .lowPower, .g2 => .convLpG2 raw
  | .lowPower, .g4 => .convLpG4 raw
  | .lowPower, .g8 => .convLpG8 raw
  | .lowPower, .g16 => .convLpG16 raw

/-- The pseudo-operation `TO_PHYSICAL <raw>, <FS>`, which expands to `CONV.HR.<FS> <raw>`
(30 R68, 41 R109). -/
def toPhysical (raw : Word) (scale : FullScale) : Instr :=
  convInstr .highResolution scale raw

/-- The assembler of 30 R68; `none` where a literal does not fit its field. -/
def assemble (l : AsmLine) : Option Instr :=
  if l.wf then
    match l with
    | .conv mode scale raw => some (convInstr mode scale (BitVec.ofNat 16 raw))
    | .rsvd fs raw => some (.convRsvd (BitVec.ofNat 2 fs) (BitVec.ofNat 16 raw))
    | .decfs byte => some (.decfs (BitVec.ofNat 8 byte))
    | .toPhysical raw scale => some (toPhysical (BitVec.ofNat 16 raw) scale)
  else none

/-- `n` bytes of a number, lowest first. -/
def lowBytes (n w : Nat) : List Byte :=
  match n with
  | 0 => []
  | k + 1 => BitVec.ofNat 8 w :: lowBytes k (w / 256)

/-- The vector whose bits are `w`, numbered as spec/opcode_table.json numbers them: a row of at most
8 bits is a CTRL4 byte, any other a V20 vector, whose 20 bits lie in three bytes. -/
def tableStimulus (nbits w : Nat) : Stimulus :=
  if nbits ≤ 8 then { port := .ctrl4, bytes := lowBytes 1 w }
  else { port := .v20, bytes := lowBytes (max 3 ((nbits + 7) / 8)) w }

/-- What the decoder reads from a table row's bits. -/
def decodeTableWord (nbits w : Nat) : Option Instr :=
  match decode (tableStimulus nbits w) with
  | .ok i => some i
  | .error _ => none

end Sys2Proof
end

