-- ==== Sys2Proof/Machine/State.lean ====
section
/-!
DEFINITION. The state of the model. The block itself holds no state (spec/10_state.md R20, R28): State
holds the settled values on its ports and the evaluation vectors the testbench has yet to apply.
-/

namespace Sys2Proof.Machine

/-- The reasons a step can stop. -/
inductive Fault where
  /-- Raised by `step` alone, when the testbench's next vector has bits that fit neither input format
  (Reject says which). No evaluation of the block raises it. Safe: the block has no wires for such
  bits, so there is no hardware behaviour to claim anything about (log entry 4). -/
  | notAnEvaluation (why : Reject)
deriving DecidableEq, Repr

/-- The reasons an operation can have no meaning. -/
inductive Refusal where
  /-- Raised by an arm of `exec` whose operation has no meaning yet. No arm does. Safe. -/
  | notModelled (mnemonic : String)
deriving DecidableEq, Repr

/-- The settled port values of the latest evaluation (10 R22 to R24), and the vectors to come. -/
structure State where
  /-- Input port `raw[15:0]`: the left-justified sample (10 R22). -/
  raw : Word
  /-- Input port `fs[1:0]`: the Full-Scale code (10 R22). -/
  fs : Code
  /-- Input port `res_mode[1:0]`: the resolution-mode code (10 R22). -/
  resMode : Code
  /-- Input port `ctrl4_in[7:0]`: the CTRL_REG4 byte (10 R24). -/
  ctrl4In : Byte
  /-- Output port `sample_out[15:0]`: the sample in digits (10 R23). -/
  sampleOut : Word
  /-- Output port `accel_out[15:0]`: the acceleration in counts of 0.001 g (10 R23). -/
  accelOut : Word
  /-- Output port `err`: the evaluation reports `UnrecognizedBitPattern` (10 R23, 60 R141). -/
  err : Bool
  /-- Output port `fs_field[1:0]`: the decoded Full-Scale code (10 R24). -/
  fsField : Code
  /-- The model's own field, not the block's: the vectors the testbench has yet to apply, next one
  first (95 section 5; log entry 2). -/
  pending : List Stimulus
deriving DecidableEq, Repr

/-- What an operation answers. -/
abbrev Result := Host.Outcome State Fault Refusal

/-- Before the testbench applies anything. The block has no reset value (10 R29, 70 R160). The input
ports are zero: DESIGN CHOICE, log entry 1. The outputs are `Eval` of those inputs, as R160 says of
every time. Nothing is pending. -/
def State.reset : State :=
  { raw := 0x0000#16, fs := 0b00#2, resMode := 0b00#2, ctrl4In := 0x00#8,
    sampleOut := 0x0000#16, accelOut := 0x0000#16, err := false, fsField := 0b00#2,
    pending := [] }

end Sys2Proof.Machine
end

