-- ==== Sys2Proof/Machine/Ops.lean ====
section
/-!
DEFINITION. The shared operations: `Eval` as the spec's one formula (spec/41_conversion.md R103),
driving the ports in an evaluation, reporting the error, what a consumer reads, and taking the
testbench's next vector.
-/

namespace Sys2Proof.Machine

/-- `accel_out`'s formula `to_bits_16(sint(d) * K)` (41 R102). -/
def scale (d : Word) (k : Nat) : Word :=
  toBits16 (d.toInt * k)

/-- `Eval(raw, fs, res_mode)` (41 R103), in the form 00 R10 proposes: the sample and the acceleration,
or the error. The meanings of the V20 operations do not call it; that they agree with it is a statement. -/
def eval (raw : Word) (fs resMode : Code) : Except DecodeError (Word × Word) :=
  match decRes resMode with
  | .error e => .error e
  | .ok m => .ok (sampleOperand m raw, scale (sampleOperand m raw) (sensK (fsVariant fs)))

/-- The values on `sample_out` and `accel_out` for a result of `Eval`: zeros on error (60 R142). -/
def outputsOf (r : Except DecodeError (Word × Word)) : Word × Word :=
  match r with
  | .ok out => out
  | .error _ => (0x0000#16, 0x0000#16)

/-- One evaluation with new inputs on the converter: `raw`, `fs` and `res_mode` take the given values
and its outputs the given results. `err` follows `res_mode` (60 R141). The Full-Scale field decoder
works in the same evaluation on the byte that `ctrl4_in` holds (30 R65, 60 R143; log entry 3). -/
def driveConverter (resMode fs : Code) (raw sample accel : Word) (s : State) : State :=
  { s with
    raw := raw, fs := fs, resMode := resMode,
    sampleOut := sample, accelOut := accel, err := errFlag resMode,
    fsField := decFs s.ctrl4In }

/-- A conversion: the selected field `field`, sign-extended, and its product with the sensitivity `k`
(41 R101, R102). -/
def convert {n : Nat} (resMode fs : Code) (raw : Word) (field : BitVec n) (k : Nat) (s : State) :
    State :=
  driveConverter resMode fs raw (sext16 field) (scale (sext16 field) k) s

/-- `raise UnrecognizedBitPattern(res_mode, 11)` (41 R122, 60 R142): both outputs are zero and `err` is
1. Not a trap: nothing is saved and no control moves (60 R144), so there is no return beside it. The
reported error is read from the ports by `reportedError`. -/
def raiseUnrecognized (fs : Code) (raw : Word) (s : State) : State :=
  driveConverter 0b11#2 fs raw 0x0000#16 0x0000#16 s

/-- One evaluation with a new byte on `ctrl4_in` (40 R80). The converter's inputs hold, and its outputs
are those of the held inputs, since every output of an evaluation is a function of that evaluation's
inputs (00 R10, 10 R20; log entry 3). -/
def driveFsDecoder (b : Byte) (s : State) : State :=
  { s with
    ctrl4In := b, fsField := decFs b,
    sampleOut := (outputsOf (eval s.raw s.fs s.resMode)).1,
    accelOut := (outputsOf (eval s.raw s.fs s.resMode)).2,
    err := errFlag s.resMode }

/-- The error the ports report: its pattern is the `res_mode` input of the evaluation (60 R140). -/
def State.reportedError (s : State) : Option DecodeError :=
  if s.err then some (.unrecognizedBitPattern .resMode s.resMode) else none

/-- What a consumer reads from the converter: `err` first, so an erroneous evaluation gives the error
and never the zeros (60 R142). -/
def State.conversion (s : State) : Except DecodeError (Word × Word) :=
  match s.reportedError with
  | some e => .error e
  | none => .ok (s.sampleOut, s.accelOut)

/-- `sint(accel_out) * 0.001`, in g (10 R23, 41 R102). -/
def gOfCounts (accel : Word) : Rat :=
  accel.toInt * (1 / 1000)

/-- The document's "physical_value" of the latest evaluation (10 R23). -/
def State.physicalValue (s : State) : Except DecodeError Rat :=
  match s.conversion with
  | .ok out => .ok (gOfCounts out.2)
  | .error e => .error e

/-- The V20 vector that the converter's input ports hold: `{res_mode, fs, raw}` (30 R60, R61). -/
def State.heldV20 (s : State) : BitVec 20 :=
  v20 (cfgWord s.resMode s.fs) s.raw

/-- The state with another list of vectors for the testbench to apply (log entry 2). -/
def State.withPending (s : State) (vs : List Stimulus) : State :=
  { s with pending := vs }

/-- The next operation and the state with its vector taken. With no vector pending the inputs hold, and
the evaluation is that of the held inputs (10 R29: at every time the outputs equal `Eval` of the
current inputs; log entry 2). -/
def fetch (s : State) : Except Reject (Instr × State) :=
  match s.pending with
  | [] => .ok (decodeV20 s.heldV20, s)
  | v :: rest =>
    match decode v with
    | .ok i => .ok (i, s.withPending rest)
    | .error why => .error why

end Sys2Proof.Machine
end

