-- ==== Sys2Proof/Machine/FsDecode.lean ====
section
/-!
DEFINITION. The Full-Scale field decode of a CTRL_REG4 byte (spec/40_config_fields.md R80).
-/

namespace Sys2Proof.Machine

/-- `DECFS` (40 R80): `fs_field = ctrl4_in[5:4]`; the other six bits are ignored. -/
def execDecfs (b : Byte) (s : State) : Result :=
  .next (driveFsDecoder b s)

end Sys2Proof.Machine
end

