-- ==== Sys2Proof/Machine/HighResolution.lean ====
section
/-!
DEFINITION. The HighResolution conversions: 12 significant bits, `raw[15:4]` (spec/41_conversion.md R110 to
R113). Each has `res_mode = 01` and its own Full-Scale code and sensitivity.
-/

namespace Sys2Proof.Machine

/-- `CONV.HR.G2` (41 R110): `d = sext_16(raw[15:4])`, `accel_out = to_bits_16(sint(d) * 1)`. -/
def execConvHrG2 (raw : Word) (s : State) : Result :=
  .next (convert 0b01#2 0b00#2 raw (raw.extractLsb 15 4) 1 s)

/-- `CONV.HR.G4` (41 R111): `d = sext_16(raw[15:4])`, `accel_out = to_bits_16(sint(d) * 2)`. -/
def execConvHrG4 (raw : Word) (s : State) : Result :=
  .next (convert 0b01#2 0b01#2 raw (raw.extractLsb 15 4) 2 s)

/-- `CONV.HR.G8` (41 R112): `d = sext_16(raw[15:4])`, `accel_out = to_bits_16(sint(d) * 4)`. -/
def execConvHrG8 (raw : Word) (s : State) : Result :=
  .next (convert 0b01#2 0b10#2 raw (raw.extractLsb 15 4) 4 s)

/-- `CONV.HR.G16` (41 R113): `d = sext_16(raw[15:4])`, `accel_out = to_bits_16(sint(d) * 12)`. -/
def execConvHrG16 (raw : Word) (s : State) : Result :=
  .next (convert 0b01#2 0b11#2 raw (raw.extractLsb 15 4) 12 s)

end Sys2Proof.Machine
end

