-- ==== Sys2Proof/Machine/LowPower.lean ====
section
/-!
DEFINITION. The LowPower conversions: 8 significant bits, `raw[15:8]` (spec/41_conversion.md R118 to
R121). Each has `res_mode = 10` and its own Full-Scale code and sensitivity.
-/

namespace Sys2Proof.Machine

/-- `CONV.LP.G2` (41 R118): `d = sext_16(raw[15:8])`, `accel_out = to_bits_16(sint(d) * 1)`. -/
def execConvLpG2 (raw : Word) (s : State) : Result :=
  .next (convert 0b10#2 0b00#2 raw (raw.extractLsb 15 8) 1 s)

/-- `CONV.LP.G4` (41 R119): `d = sext_16(raw[15:8])`, `accel_out = to_bits_16(sint(d) * 2)`. -/
def execConvLpG4 (raw : Word) (s : State) : Result :=
  .next (convert 0b10#2 0b01#2 raw (raw.extractLsb 15 8) 2 s)

/-- `CONV.LP.G8` (41 R120): `d = sext_16(raw[15:8])`, `accel_out = to_bits_16(sint(d) * 4)`. -/
def execConvLpG8 (raw : Word) (s : State) : Result :=
  .next (convert 0b10#2 0b10#2 raw (raw.extractLsb 15 8) 4 s)

/-- `CONV.LP.G16` (41 R121): `d = sext_16(raw[15:8])`, `accel_out = to_bits_16(sint(d) * 12)`. -/
def execConvLpG16 (raw : Word) (s : State) : Result :=
  .next (convert 0b10#2 0b11#2 raw (raw.extractLsb 15 8) 12 s)

end Sys2Proof.Machine
end

