-- ==== Sys2Proof/Machine/Normal.lean ====
section
/-!
DEFINITION. The Normal conversions: 10 significant bits, `raw[15:6]` (spec/41_conversion.md R114 to
R117). Each has `res_mode = 00` and its own Full-Scale code and sensitivity.
-/

namespace Sys2Proof.Machine

/-- `CONV.NM.G2` (41 R114): `d = sext_16(raw[15:6])`, `accel_out = to_bits_16(sint(d) * 1)`. -/
def execConvNmG2 (raw : Word) (s : State) : Result :=
  .next (convert 0b00#2 0b00#2 raw (raw.extractLsb 15 6) 1 s)

/-- `CONV.NM.G4` (41 R115): `d = sext_16(raw[15:6])`, `accel_out = to_bits_16(sint(d) * 2)`. -/
def execConvNmG4 (raw : Word) (s : State) : Result :=
  .next (convert 0b00#2 0b01#2 raw (raw.extractLsb 15 6) 2 s)

/-- `CONV.NM.G8` (41 R116): `d = sext_16(raw[15:6])`, `accel_out = to_bits_16(sint(d) * 4)`. -/
def execConvNmG8 (raw : Word) (s : State) : Result :=
  .next (convert 0b00#2 0b10#2 raw (raw.extractLsb 15 6) 4 s)

/-- `CONV.NM.G16` (41 R117): `d = sext_16(raw[15:6])`, `accel_out = to_bits_16(sint(d) * 12)`. -/
def execConvNmG16 (raw : Word) (s : State) : Result :=
  .next (convert 0b00#2 0b11#2 raw (raw.extractLsb 15 6) 12 s)

end Sys2Proof.Machine
end

