-- ==== Sys2Proof/Machine/Reserved.lean ====
section
/-!
DEFINITION. The evaluation with the reserved resolution-mode code (spec/41_conversion.md R122).
-/

namespace Sys2Proof.Machine

/-- `CONV.RSVD` (41 R122): the error is reported, whatever `raw` and `fs` are. The machine goes on: the
next evaluation is unaffected (60 R144; log entry 5). -/
def execConvRsvd (fs : Code) (raw : Word) (s : State) : Result :=
  .next (raiseUnrecognized fs raw s)

end Sys2Proof.Machine
end

