-- ==== Sys2Proof/Machine/Dispatch.lean ====
section
/-!
DEFINITION. One arm per operation of spec/opcode_table.json.
-/

namespace Sys2Proof.Machine

def exec (i : Instr) (s : State) : Host.Outcome State Fault Refusal :=
  match i with
  | .convHrG2 raw => Sys2Proof.Machine.execConvHrG2 raw s
  | .convHrG4 raw => Sys2Proof.Machine.execConvHrG4 raw s
  | .convHrG8 raw => Sys2Proof.Machine.execConvHrG8 raw s
  | .convHrG16 raw => Sys2Proof.Machine.execConvHrG16 raw s
  | .convNmG2 raw => Sys2Proof.Machine.execConvNmG2 raw s
  | .convNmG4 raw => Sys2Proof.Machine.execConvNmG4 raw s
  | .convNmG8 raw => Sys2Proof.Machine.execConvNmG8 raw s
  | .convNmG16 raw => Sys2Proof.Machine.execConvNmG16 raw s
  | .convLpG2 raw => Sys2Proof.Machine.execConvLpG2 raw s
  | .convLpG4 raw => Sys2Proof.Machine.execConvLpG4 raw s
  | .convLpG8 raw => Sys2Proof.Machine.execConvLpG8 raw s
  | .convLpG16 raw => Sys2Proof.Machine.execConvLpG16 raw s
  | .convRsvd fs raw => Sys2Proof.Machine.execConvRsvd fs raw s
  | .decfs byte => Sys2Proof.Machine.execDecfs byte s

end Sys2Proof.Machine
end

