-- ==== Sys2Proof/Machine/Step.lean ====
section
/-!
DEFINITION. One step is one settled evaluation (spec/00_scope.md R10).
-/

namespace Sys2Proof.Machine

/-- Take the testbench's next vector and run the operation it selects. -/
def step (s : State) : Host.Outcome State Fault Refusal :=
  match fetch s with
  | .ok (i, s') => exec i s'
  | .error why => .fault (.notAnEvaluation why)

/-- The state with a table row's vector as the next one the testbench applies (log entry 2). -/
def State.withFetchWord (s : State) (nbits w : Nat) : State :=
  s.withPending (tableStimulus nbits w :: s.pending)

end Sys2Proof.Machine
end

