-- ==== Sys2Proof/Safety.lean ====
section
/-!
DEFINITION. What statements about runs are said in: settled ports, the converter's and the decoder's
inputs and outputs, and a list of vectors that fit the block.
-/

namespace Sys2Proof.Machine

/-- The ports are settled: every output is the function of the inputs that the spec gives
(10 R29, 41 R103, 60 R141, R142, R143). -/
structure Settled (s : State) : Prop where
  /-- The two data outputs are `Eval` of `raw`, `fs`, `res_mode`. -/
  data : (s.sampleOut, s.accelOut) = outputsOf (eval s.raw s.fs s.resMode)
  /-- `err` follows `res_mode`. -/
  flag : s.err = errFlag s.resMode
  /-- `fs_field` follows `ctrl4_in`. -/
  field : s.fsField = decFs s.ctrl4In

/-- The values on the four input ports. -/
structure Inputs where
  raw : Word
  fs : Code
  resMode : Code
  ctrl4In : Byte
deriving DecidableEq, Repr

/-- The values on the four output ports. -/
structure Outputs where
  sampleOut : Word
  accelOut : Word
  err : Bool
  fsField : Code
deriving DecidableEq, Repr

/-- The input ports of a state. -/
def State.inputs (s : State) : Inputs :=
  { raw := s.raw, fs := s.fs, resMode := s.resMode, ctrl4In := s.ctrl4In }

/-- The output ports of a state. -/
def State.outputs (s : State) : Outputs :=
  { sampleOut := s.sampleOut, accelOut := s.accelOut, err := s.err, fsField := s.fsField }

/-- Every pending vector fits the block's input ports. -/
def State.pendingFits (s : State) : Prop :=
  ∀ v ∈ s.pending, v.wf = true

/-- At `s` the operation `i` completes and the converter's outputs are the given values. -/
def Drives (i : Instr) (s : State) (sample accel : Word) (err : Bool) : Prop :=
  ∃ t, exec i s = .next t ∧ t.sampleOut = sample ∧ t.accelOut = accel ∧ t.err = err

/-- The numbers of one conversion's rule (41 R110 to R121): its codes, shift and sensitivity, the
ranges of its outputs, its corner cases and its example. -/
structure ConversionRule where
  op : Word → Instr
  resMode : Code
  fs : Code
  shift : Nat
  k : Nat
  sampleMin : Int
  sampleMax : Int
  accelMin : Int
  accelMax : Int
  /-- `sample_out` and `accel_out` at `raw = 0x8000`. -/
  lowest : Word × Word
  /-- `sample_out` and `accel_out` at `raw = 0x7FFF`. -/
  highest : Word × Word
  /-- `accel_out` at `raw = 0xFFFF`, where `sample_out` is `0xFFFF`. -/
  accelOfMinusOne : Word
  /-- The largest `raw` from `0x0000` up that gives 0 for both outputs. -/
  lastZero : Word
  /-- The smallest positive step: one digit. -/
  oneDigit : Word
  /-- The example's `raw`, `sample_out` and `accel_out`. -/
  worked : Word × Word × Word

/-- The model does what the rule says, at every `raw` word and in every state. -/
structure ConversionRule.Holds (r : ConversionRule) : Prop where
  /-- The operation's V20 vector is `{cfg, raw}`. -/
  encoding : ∀ raw, encode (r.op raw) = v20Stimulus (v20 (cfgWord r.resMode r.fs) raw) ∧
    decodeV20 (v20 (cfgWord r.resMode r.fs) raw) = r.op raw
  /-- It completes; the inputs are the operands, and the outputs those of the pseudocode, inside their
  ranges and without a wrap. (Its frame is a statement of its own.) -/
  result : ∀ raw s, ∃ t, exec (r.op raw) s = .next t ∧
    t.raw = raw ∧ t.resMode = r.resMode ∧ t.fs = r.fs ∧
    t.sampleOut = (raw.extractLsb' r.shift (16 - r.shift)).signExtend 16 ∧
    t.sampleOut = raw.sshiftRight r.shift ∧
    t.accelOut = BitVec.ofInt 16 (t.sampleOut.toInt * r.k) ∧
    t.accelOut.toInt = t.sampleOut.toInt * r.k ∧
    t.err = false ∧
    r.sampleMin ≤ t.sampleOut.toInt ∧ t.sampleOut.toInt ≤ r.sampleMax ∧
    r.accelMin ≤ t.accelOut.toInt ∧ t.accelOut.toInt ≤ r.accelMax
  /-- The corner cases and the example. -/
  corners : ∀ s, Drives (r.op 0x8000#16) s r.lowest.1 r.lowest.2 false ∧
    Drives (r.op 0x7FFF#16) s r.highest.1 r.highest.2 false ∧
    Drives (r.op 0xFFFF#16) s 0xFFFF#16 r.accelOfMinusOne false ∧
    Drives (r.op r.oneDigit) s 0x0001#16 (BitVec.ofNat 16 r.k) false ∧
    Drives (r.op r.worked.1) s r.worked.2.1 r.worked.2.2 false
  /-- Every `raw` from `0x0000` up to the last one below a digit gives 0 for both outputs. -/
  zeros : ∀ raw s, raw ≤ r.lastZero → Drives (r.op raw) s 0x0000#16 0x0000#16 false

end Sys2Proof.Machine

/-- The operations with a V20 vector: all but `DECFS` (30 R61, R62). -/
def Sys2Proof.Instr.usesConverter (i : Sys2Proof.Instr) : Bool :=
  match i with
  | .convHrG2 _ => true
  | .convHrG4 _ => true
  | .convHrG8 _ => true
  | .convHrG16 _ => true
  | .convNmG2 _ => true
  | .convNmG4 _ => true
  | .convNmG8 _ => true
  | .convNmG16 _ => true
  | .convLpG2 _ => true
  | .convLpG4 _ => true
  | .convLpG8 _ => true
  | .convLpG16 _ => true
  | .convRsvd _ _ => true
  | .decfs _ => false
end

