-- ==== Sys2Proof/Certificates/Slice0/Obligations.lean ====
section
/-!
DEFINITION. The statements about the model. "41 R103" is rule R103 of the file spec/41_*.md. Clauses about
`pending`, the testbench's list of vectors, and about input ports that an evaluation does not name are
the model's own (log entries 2 and 3); the statements that hold such a clause are derived.
-/

open Sys2Proof Sys2Proof.Machine

/-! ### Encoding -/

/-- 30 R60, R61, R65: decoding an operation's vector gives the operation back, every operand at every
value. The vector is in the model's own bytes (log entry 4). -/
def Obligations.DecodingTheEncodedOperationGivesItBack : Prop :=
  ∀ i : Instr, decode (encode i) = .ok i

/-- Encoding what a vector decodes to gives the vector back; no bit of it is dropped. Of the 20 bits of
V20 and the byte of CTRL4 this rests on 30 R61, R62 and R65, where each value has one meaning. Of bytes
it holds by the model's choice, log entry 4 (DESIGN CHOICE): each vector has one form in bytes, and
bits above the 20 are rejected. -/
def Obligations.EncodingTheDecodedVectorGivesItBack : Prop :=
  ∀ (v : Stimulus) (i : Instr), decode v = .ok i → encode i = v

/-- The byte-level decoder accepts exactly the vectors that fit an input format (30 R61, R62, R66; the
bytes are the model's own, log entry 4). -/
def Obligations.DecoderAcceptsExactlyFittingVectors : Prop :=
  ∀ v : Stimulus, (∃ i, decode v = .ok i) ↔ v.wf = true

/-- 30 R65, the operation map: each value of `cfg` selects its operation, with the `N`, `S` and `K` of
its row; `DECFS` takes every byte, and runs in every evaluation on `ctrl4_in`. -/
def Obligations.OperationMapSelectsEveryCfg : Prop :=
  (∀ row ∈ ([
      (0b00#2, 0b00#2, .convNmG2, 10, 6, 1), (0b00#2, 0b01#2, .convNmG4, 10, 6, 2),
      (0b00#2, 0b10#2, .convNmG8, 10, 6, 4), (0b00#2, 0b11#2, .convNmG16, 10, 6, 12),
      (0b01#2, 0b00#2, .convHrG2, 12, 4, 1), (0b01#2, 0b01#2, .convHrG4, 12, 4, 2),
      (0b01#2, 0b10#2, .convHrG8, 12, 4, 4), (0b01#2, 0b11#2, .convHrG16, 12, 4, 12),
      (0b10#2, 0b00#2, .convLpG2, 8, 8, 1), (0b10#2, 0b01#2, .convLpG4, 8, 8, 2),
      (0b10#2, 0b10#2, .convLpG8, 8, 8, 4), (0b10#2, 0b11#2, .convLpG16, 8, 8, 12)] :
      List (Code × Code × (Word → Instr) × Nat × Nat × Nat)),
    ∀ raw : Word,
      decodeV20 (v20 (cfgWord row.1 row.2.1) raw) = row.2.2.1 raw ∧
      ∃ m, decRes row.1 = .ok m ∧ sigBits m = row.2.2.2.1 ∧ padBits m = row.2.2.2.2.1 ∧
        sensK (fsVariant row.2.1) = row.2.2.2.2.2) ∧
  (∀ (fs : Code) (raw : Word), decodeV20 (v20 (cfgWord 0b11#2 fs) raw) = .convRsvd fs raw) ∧
  (∀ b : Byte, decodeCtrl4 b = .decfs b) ∧
  (∀ i s, ∃ t, exec i s = .next t ∧ t.fsField = t.ctrl4In.extractLsb' 4 2)

/-- 30 R66: the reserved values are exactly those with `res_mode` = 11, which report the error; every
other V20 vector converts without one, every Full-Scale code is a variant's, and every CTRL_REG4 byte
decodes. -/
def Obligations.OnlyResModeElevenIsReserved : Prop :=
  ∀ (v : BitVec 20) (s : State),
    ((∃ fs raw, decodeV20 v = .convRsvd fs raw) ↔ v.extractLsb' 18 2 = 0b11#2) ∧
    (∃ t, exec (decodeV20 v) s = .next t ∧
      t.reportedError = if v.extractLsb' 18 2 = 0b11#2
        then some (.unrecognizedBitPattern .resMode 0b11#2) else none) ∧
    (∀ c : Code, ∃ scale, encFs scale = c) ∧
    (∀ b : Byte, ∃ u, exec (decodeCtrl4 b) s = .next u)

/-- 30 R60, R61: `V = {cfg[3:0], raw[15:0]}` with `cfg = {res_mode, fs}`: each field of the vector
reaches its input port, and `0x40010` is HighResolution, G2, `raw = 0x0010`. -/
def Obligations.VectorFieldsReachTheirPorts : Prop :=
  (∀ (v : BitVec 20) (s : State), ∃ t, exec (decodeV20 v) s = .next t ∧
    t.resMode = v.extractLsb' 18 2 ∧ t.fs = v.extractLsb' 16 2 ∧ t.raw = v.extractLsb' 0 16) ∧
  decodeV20 0x40010#20 = .convHrG2 0x0010#16

/-- Words written out from the encodings of 30 R61, R62 and R65 decode to their operations. That 24 bits
are read as a V20 vector and 8 as a CTRL4 byte is the model's choice (log entry 4). -/
def Obligations.WrittenOutVectorsDecode : Prop :=
  decodeTableWord 24 0b0100_0000_0000_0001_0000 = some (.convHrG2 0x0010#16) ∧
  decodeTableWord 24 0b0001_1111_1111_1100_0000 = some (.convNmG4 0xFFC0#16) ∧
  decodeTableWord 24 0b1011_1111_1111_0000_0000 = some (.convLpG16 0xFF00#16) ∧
  decodeTableWord 24 0b1101_0000_0000_0001_0000 = some (.convRsvd 0b01#2 0x0010#16) ∧
  decodeTableWord 8 0b1001_0000 = some (.decfs 0x90#8)

/-- 30 R68: an assembler line whose literals fit assembles to the operation it names, and
`TO_PHYSICAL` to `CONV.HR`. A literal that does not fit is refused: the model's choice (log
entry 7). -/
def Obligations.AssemblerLinesNameTheirOperations : Prop :=
  (∀ mode scale (raw : Word),
    assemble (.conv mode scale raw.toNat) = some (convInstr mode scale raw) ∧
    assemble (.toPhysical raw.toNat scale) = some (convInstr .highResolution scale raw)) ∧
  (∀ (fs : Code) (raw : Word), assemble (.rsvd fs.toNat raw.toNat) = some (.convRsvd fs raw)) ∧
  (∀ b : Byte, assemble (.decfs b.toNat) = some (.decfs b)) ∧
  (∀ l : AsmLine, l.wf = false → assemble l = none)

/-! ### The machine -/

/-- 70 R160, 10 R29: at reset the outputs are `Eval` of the inputs. The inputs themselves, and that
nothing is pending, are the model's choice (log entries 1 and 2). -/
def Obligations.ResetPortsAreSettled : Prop :=
  Settled State.reset ∧ State.reset.pending = []

/-- 10 R20, R29, 70 R160: whatever the state before, a step leaves every output the function of the
inputs that the spec gives, and a consumer reads `Eval` of the inputs, the error included. -/
def Obligations.EveryStepSettlesThePorts : Prop :=
  ∀ s s' : State, step s = .next s' →
    Settled s' ∧ s'.conversion = eval s'.raw s'.fs s'.resMode

/-- 00 R10: `Eval` is total. A run over vectors that fit the ports never stops, takes one vector a step
and leaves settled ports. -/
def Obligations.RunsOfFittingVectorsNeverStop : Prop :=
  ∀ (k : Nat) (s : State), s.pendingFits →
    ∃ t : State, Host.Core.run Sys2Proof.core k s = .next t ∧ t.pending = s.pending.drop k ∧
      (0 < k → Settled t)

/-- 10 R28, 20 R47: whatever evaluations came before, in whatever state, a run ends at `Eval` of its
last vector. -/
def Obligations.RunEndsAtEvalOfItsLastVector : Prop :=
  ∀ (s : State) (earlier : List Stimulus) (resMode fs : Code) (raw : Word),
    (∀ v ∈ earlier, v.wf = true) →
    ∃ t : State,
      Host.Core.run Sys2Proof.core (earlier.length + 1)
        (s.withPending (earlier ++ [v20Stimulus (v20 (cfgWord resMode fs) raw)])) = .next t ∧
      t.conversion = eval raw fs resMode ∧
      (t.sampleOut, t.accelOut) = outputsOf (eval raw fs resMode) ∧
      t.err = errFlag resMode ∧ t.pending = []

/-- The step runs the decoded operation: that of the next pending vector, with the vector taken; with
none pending, that of the inputs the ports hold (10 R29; log entry 2); after `withFetchWord`, that of
the table word. -/
def Obligations.StepRunsTheDecodedOperation : Prop :=
  (∀ (s : State) (v : Stimulus) (rest : List Stimulus) (i : Instr),
    s.pending = v :: rest → decode v = .ok i → step s = exec i (s.withPending rest)) ∧
  (∀ s : State, s.pending = [] →
    step s = exec (decodeV20 (v20 (cfgWord s.resMode s.fs) s.raw)) s) ∧
  (∀ (s : State) (nbits w : Nat) (i : Instr), decodeTableWord nbits w = some i →
    step (s.withFetchWord nbits w) = exec i s)

/-- A vector that fits neither input format stops the step by name: the model's choice (log entry
4; 30 R61, R62 give the formats). -/
def Obligations.UnfittingVectorStopsTheStep : Prop :=
  ∀ (s : State) (v : Stimulus) (rest : List Stimulus) (why : Reject),
    s.pending = v :: rest → decode v = .error why → step s = .fault (.notAnEvaluation why)

/-- 00 R10: every operation completes in every state and settles the ports. -/
def Obligations.EveryOperationCompletes : Prop :=
  ∀ (i : Instr) (s : State), ∃ t, exec i s = .next t ∧ Settled t

/-! ### The operations -/

/-- 41 R110 to R113: the four HighResolution conversions complete in every state, with the encodings,
outputs, ranges, corner cases and examples that their rules give. -/
def Obligations.HighResolutionConversionsFollowTheirRules : Prop :=
  ConversionRule.Holds
    { op := .convHrG2, resMode := 0b01#2, fs := 0b00#2, shift := 4, k := 1,
      sampleMin := -2048, sampleMax := 2047, accelMin := -2048, accelMax := 2047,
      lowest := (0xF800#16, 0xF800#16), highest := (0x07FF#16, 0x07FF#16),
      accelOfMinusOne := 0xFFFF#16, lastZero := 0x000F#16, oneDigit := 0x0010#16,
      worked := (0x0010#16, 0x0001#16, 0x0001#16) } ∧
  ConversionRule.Holds
    { op := .convHrG4, resMode := 0b01#2, fs := 0b01#2, shift := 4, k := 2,
      sampleMin := -2048, sampleMax := 2047, accelMin := -4096, accelMax := 4094,
      lowest := (0xF800#16, 0xF000#16), highest := (0x07FF#16, 0x0FFE#16),
      accelOfMinusOne := 0xFFFE#16, lastZero := 0x000F#16, oneDigit := 0x0010#16,
      worked := (0xFFF0#16, 0xFFFF#16, 0xFFFE#16) } ∧
  ConversionRule.Holds
    { op := .convHrG8, resMode := 0b01#2, fs := 0b10#2, shift := 4, k := 4,
      sampleMin := -2048, sampleMax := 2047, accelMin := -8192, accelMax := 8188,
      lowest := (0xF800#16, 0xE000#16), highest := (0x07FF#16, 0x1FFC#16),
      accelOfMinusOne := 0xFFFC#16, lastZero := 0x000F#16, oneDigit := 0x0010#16,
      worked := (0x7FF0#16, 0x07FF#16, 0x1FFC#16) } ∧
  ConversionRule.Holds
    { op := .convHrG16, resMode := 0b01#2, fs := 0b11#2, shift := 4, k := 12,
      sampleMin := -2048, sampleMax := 2047, accelMin := -24576, accelMax := 24564,
      lowest := (0xF800#16, 0xA000#16), highest := (0x07FF#16, 0x5FF4#16),
      accelOfMinusOne := 0xFFF4#16, lastZero := 0x000F#16, oneDigit := 0x0010#16,
      worked := (0x8000#16, 0xF800#16, 0xA000#16) }

/-- 41 R114 to R117: the four Normal conversions complete in every state, with the encodings,
outputs, ranges, corner cases and examples that their rules give. -/
def Obligations.NormalConversionsFollowTheirRules : Prop :=
  ConversionRule.Holds
    { op := .convNmG2, resMode := 0b00#2, fs := 0b00#2, shift := 6, k := 1,
      sampleMin := -512, sampleMax := 511, accelMin := -512, accelMax := 511,
      lowest := (0xFE00#16, 0xFE00#16), highest := (0x01FF#16, 0x01FF#16),
      accelOfMinusOne := 0xFFFF#16, lastZero := 0x003F#16, oneDigit := 0x0040#16,
      worked := (0x0040#16, 0x0001#16, 0x0001#16) } ∧
  ConversionRule.Holds
    { op := .convNmG4, resMode := 0b00#2, fs := 0b01#2, shift := 6, k := 2,
      sampleMin := -512, sampleMax := 511, accelMin := -1024, accelMax := 1022,
      lowest := (0xFE00#16, 0xFC00#16), highest := (0x01FF#16, 0x03FE#16),
      accelOfMinusOne := 0xFFFE#16, lastZero := 0x003F#16, oneDigit := 0x0040#16,
      worked := (0xFFC0#16, 0xFFFF#16, 0xFFFE#16) } ∧
  ConversionRule.Holds
    { op := .convNmG8, resMode := 0b00#2, fs := 0b10#2, shift := 6, k := 4,
      sampleMin := -512, sampleMax := 511, accelMin := -2048, accelMax := 2044,
      lowest := (0xFE00#16, 0xF800#16), highest := (0x01FF#16, 0x07FC#16),
      accelOfMinusOne := 0xFFFC#16, lastZero := 0x003F#16, oneDigit := 0x0040#16,
      worked := (0x4000#16, 0x0100#16, 0x0400#16) } ∧
  ConversionRule.Holds
    { op := .convNmG16, resMode := 0b00#2, fs := 0b11#2, shift := 6, k := 12,
      sampleMin := -512, sampleMax := 511, accelMin := -6144, accelMax := 6132,
      lowest := (0xFE00#16, 0xE800#16), highest := (0x01FF#16, 0x17F4#16),
      accelOfMinusOne := 0xFFF4#16, lastZero := 0x003F#16, oneDigit := 0x0040#16,
      worked := (0x7FFF#16, 0x01FF#16, 0x17F4#16) }

/-- 41 R118 to R121: the four LowPower conversions complete in every state, with the encodings,
outputs, ranges, corner cases and examples that their rules give. -/
def Obligations.LowPowerConversionsFollowTheirRules : Prop :=
  ConversionRule.Holds
    { op := .convLpG2, resMode := 0b10#2, fs := 0b00#2, shift := 8, k := 1,
      sampleMin := -128, sampleMax := 127, accelMin := -128, accelMax := 127,
      lowest := (0xFF80#16, 0xFF80#16), highest := (0x007F#16, 0x007F#16),
      accelOfMinusOne := 0xFFFF#16, lastZero := 0x00FF#16, oneDigit := 0x0100#16,
      worked := (0x0100#16, 0x0001#16, 0x0001#16) } ∧
  ConversionRule.Holds
    { op := .convLpG4, resMode := 0b10#2, fs := 0b01#2, shift := 8, k := 2,
      sampleMin := -128, sampleMax := 127, accelMin := -256, accelMax := 254,
      lowest := (0xFF80#16, 0xFF00#16), highest := (0x007F#16, 0x00FE#16),
      accelOfMinusOne := 0xFFFE#16, lastZero := 0x00FF#16, oneDigit := 0x0100#16,
      worked := (0x8000#16, 0xFF80#16, 0xFF00#16) } ∧
  ConversionRule.Holds
    { op := .convLpG8, resMode := 0b10#2, fs := 0b10#2, shift := 8, k := 4,
      sampleMin := -128, sampleMax := 127, accelMin := -512, accelMax := 508,
      lowest := (0xFF80#16, 0xFE00#16), highest := (0x007F#16, 0x01FC#16),
      accelOfMinusOne := 0xFFFC#16, lastZero := 0x00FF#16, oneDigit := 0x0100#16,
      worked := (0x00FF#16, 0x0000#16, 0x0000#16) } ∧
  ConversionRule.Holds
    { op := .convLpG16, resMode := 0b10#2, fs := 0b11#2, shift := 8, k := 12,
      sampleMin := -128, sampleMax := 127, accelMin := -1536, accelMax := 1524,
      lowest := (0xFF80#16, 0xFA00#16), highest := (0x007F#16, 0x05F4#16),
      accelOfMinusOne := 0xFFF4#16, lastZero := 0x00FF#16, oneDigit := 0x0100#16,
      worked := (0xFF00#16, 0xFFFF#16, 0xFFF4#16) }

/-- 41 R122: `CONV.RSVD` reports the error in every state, whatever `raw` and `fs` are; both outputs are
zero, `err` is 1, the consumer reads the error, and the next conversion's outputs are unaffected. -/
def Obligations.ReservedModeReportsTheError : Prop :=
  ∀ (fs : Code) (raw : Word) (s : State),
    encode (.convRsvd fs raw) = v20Stimulus (v20 (cfgWord 0b11#2 fs) raw) ∧
    decodeV20 (v20 (cfgWord 0b11#2 fs) raw) = .convRsvd fs raw ∧
    decodeV20 0xD0010#20 = .convRsvd 0b01#2 0x0010#16 ∧
    ∃ t, exec (.convRsvd fs raw) s = .next t ∧
      t.raw = raw ∧ t.fs = fs ∧ t.resMode = 0b11#2 ∧
      t.sampleOut = 0x0000#16 ∧ t.accelOut = 0x0000#16 ∧ t.err = true ∧
      t.reportedError = some (.unrecognizedBitPattern .resMode 0b11#2) ∧
      t.conversion = .error (.unrecognizedBitPattern .resMode 0b11#2) ∧
      ∀ i : Instr, i.usesConverter = true → ∃ u u', exec i t = .next u ∧ exec i s = .next u' ∧
        u.sampleOut = u'.sampleOut ∧ u.accelOut = u'.accelOut ∧ u.err = u'.err

/-- 40 R80: `DECFS` gives bits 5:4 of the byte in every state, ignores the other six bits, and `err` does
not depend on the byte; `0x10` and `0x90` both give G4. -/
def Obligations.DecfsGivesTheFullScaleField : Prop :=
  (∀ (b : Byte) (s : State), ∃ t, exec (.decfs b) s = .next t ∧
    t.ctrl4In = b ∧
    t.fsField = (((b &&& 0b0011_0000#8) >>> 4).extractLsb' 0 2 : Code) ∧
    t.fsField = b.extractLsb' 4 2) ∧
  (∀ (b b' : Byte) (s : State), ∃ t t', exec (.decfs b) s = .next t ∧
    exec (.decfs b') s = .next t' ∧ t.err = t'.err) ∧
  (∀ (b b' : Byte) (s : State), b.extractLsb' 4 2 = b'.extractLsb' 4 2 →
    ∃ t t', exec (.decfs b) s = .next t ∧ exec (.decfs b') s = .next t' ∧
      t.fsField = t'.fsField) ∧
  (∀ s : State, ∃ t t', exec (.decfs 0x10#8) s = .next t ∧ exec (.decfs 0x90#8) s = .next t' ∧
    t.fsField = 0b01#2 ∧ t'.fsField = 0b01#2 ∧ fsVariant 0b01#2 = .g4)

/-- 40 R81, R82: the codes of the variants, in and out of register position; every code is one
variant's. -/
def Obligations.FullScaleVariantsEncode : Prop :=
  (encFs .g2 = 0b00#2 ∧ encFs .g4 = 0b01#2 ∧ encFs .g8 = 0b10#2 ∧ encFs .g16 = 0b11#2) ∧
  (encFsPos .g2 = 0b0000_0000#8 ∧ encFsPos .g4 = 0b0001_0000#8 ∧
    encFsPos .g8 = 0b0010_0000#8 ∧ encFsPos .g16 = 0b0011_0000#8) ∧
  (∀ v, encFsPos v = (encFs v).zeroExtend 8 <<< 4) ∧
  (∀ c, encFs (fsVariant c) = c) ∧ (∀ v, fsVariant (encFs v) = v)

/-- 40 R83, the round-trip laws of the Full-Scale field, through the operation `DECFS`, which never
fails. -/
def Obligations.FullScaleFieldRoundTrips : Prop :=
  (∀ (b : Byte) (s : State), ∃ t, exec (.decfs b) s = .next t ∧
    encFs (fsVariant t.fsField) = ((b &&& 0b0011_0000#8) >>> 4).extractLsb' 0 2 ∧
    encFsPos (fsVariant t.fsField) = b &&& 0b0011_0000#8) ∧
  (∀ (v : FullScale) (s : State), ∃ t, exec (.decfs (encFsPos v)) s = .next t ∧
    fsVariant t.fsField = v)

/-- 40 R84, R85: the sensitivities and the integers `K`, each exactly its sensitivity in counts of
0.001 g, and their ratios. -/
def Obligations.SensitivityTable : Prop :=
  (sensitivity .g2 = 1 / 1000 ∧ sensitivity .g4 = 2 / 1000 ∧
    sensitivity .g8 = 4 / 1000 ∧ sensitivity .g16 = 12 / 1000) ∧
  (sensK .g2 = 1 ∧ sensK .g4 = 2 ∧ sensK .g8 = 4 ∧ sensK .g16 = 12) ∧
  (∀ v, (sensK v : Rat) = sensitivity v / (1 / 1000)) ∧
  (sensK .g4 = 2 * sensK .g2 ∧ sensK .g8 = 4 * sensK .g2 ∧ sensK .g16 = 12 * sensK .g2 ∧
    sensK .g16 = 3 * sensK .g8)

/-- 40 R86: the sensitivity is the same in all resolution modes: equal samples at one Full-Scale code
give equal accelerations, whatever the two modes. -/
def Obligations.SensitivityIsTheSameInEveryMode : Prop :=
  ∀ (m m' : ResMode) (v : FullScale) (raw raw' : Word) (s s' : State), ∃ t t',
    exec (convInstr m v raw) s = .next t ∧ exec (convInstr m' v raw') s' = .next t' ∧
    (t.sampleOut = t'.sampleOut → t.accelOut = t'.accelOut)

/-- 40 R87, R88: the resolution-mode decode with `N` and `S` of each mode, and its effect: the shift is
`S` of the active mode, and code 11 reports the error and is decoded to no mode. -/
def Obligations.ResolutionModeSelectsTheShift : Prop :=
  (decRes 0b00#2 = .ok .normal ∧ decRes 0b01#2 = .ok .highResolution ∧
    decRes 0b10#2 = .ok .lowPower ∧
    decRes 0b11#2 = .error (.unrecognizedBitPattern .resMode 0b11#2)) ∧
  (sigBits .normal = 10 ∧ padBits .normal = 6 ∧
    sigBits .highResolution = 12 ∧ padBits .highResolution = 4 ∧
    sigBits .lowPower = 8 ∧ padBits .lowPower = 8) ∧
  ∀ (fs : Code) (raw : Word) (s : State), ∃ t00 t01 t10 t11,
    exec (decodeV20 (v20 (cfgWord 0b00#2 fs) raw)) s = .next t00 ∧
    exec (decodeV20 (v20 (cfgWord 0b01#2 fs) raw)) s = .next t01 ∧
    exec (decodeV20 (v20 (cfgWord 0b10#2 fs) raw)) s = .next t10 ∧
    exec (decodeV20 (v20 (cfgWord 0b11#2 fs) raw)) s = .next t11 ∧
    t00.sampleOut = raw.sshiftRight 6 ∧ t01.sampleOut = raw.sshiftRight 4 ∧
    t10.sampleOut = raw.sshiftRight 8 ∧
    t00.reportedError = none ∧ t01.reportedError = none ∧ t10.reportedError = none ∧
    t11.reportedError = some (.unrecognizedBitPattern .resMode 0b11#2)

/-- 41 R103: for all inputs the per-operation meanings give what the one formula `Eval` gives, written
out here with its own `case`, and the Full-Scale field decoder works beside it. -/
def Obligations.OperationsAgreeWithEval : Prop :=
  ∀ (raw : Word) (fs resMode : Code) (s : State),
    ∃ t, exec (decodeV20 (v20 (cfgWord resMode fs) raw)) s = .next t ∧
      t.raw = raw ∧ t.fs = fs ∧ t.resMode = resMode ∧
      (resMode = 0b11#2 →
        t.sampleOut = 0x0000#16 ∧ t.accelOut = 0x0000#16 ∧ t.err = true ∧
        t.reportedError = some (.unrecognizedBitPattern .resMode 0b11#2)) ∧
      (resMode ≠ 0b11#2 →
        ∃ S, S = (if resMode = 0b00#2 then 6 else if resMode = 0b01#2 then 4 else 8) ∧
        ∃ K, K = (if fs = 0b00#2 then 1 else if fs = 0b01#2 then 2
          else if fs = 0b10#2 then 4 else 12) ∧
        t.sampleOut = (raw.extractLsb' S (16 - S)).signExtend 16 ∧
        t.accelOut = BitVec.ofInt 16 (t.sampleOut.toInt * K) ∧
        t.err = false ∧ t.reportedError = none) ∧
      t.conversion = eval raw fs resMode ∧
      t.fsField = t.ctrl4In.extractLsb' 4 2

/-! ### The arithmetic -/

/-- 30 R63: the sample operand is the sign-extended field `raw[15 : S(m)]`, which is the arithmetic
shift, and its sign is `raw[15]`; the padding takes no part. -/
def Obligations.SampleIsTheSignExtendedField : Prop :=
  (padBits .highResolution = 4 ∧ padBits .normal = 6 ∧ padBits .lowPower = 8) ∧
  ∀ (m : ResMode) (v : FullScale) (raw : Word) (s : State),
    ∃ t, exec (convInstr m v raw) s = .next t ∧
      t.sampleOut = (raw.extractLsb' (padBits m) (16 - padBits m)).signExtend 16 ∧
      t.sampleOut = raw.sshiftRight (padBits m) ∧
      t.sampleOut.msb = raw.getLsbD 15

/-- 41 R101: `sint(d) = floor(sint(raw) / 2^S)`, written with the exact quotient; a logical shift would be
wrong. -/
def Obligations.SampleIsTheFloorOfTheQuotient : Prop :=
  (∀ (m : ResMode) (v : FullScale) (raw : Word) (s : State),
    ∃ t, exec (convInstr m v raw) s = .next t ∧
      t.sampleOut = (raw.extractLsb' (padBits m) (sigBits m)).signExtend 16 ∧
      t.sampleOut = raw.sshiftRight (padBits m) ∧
      t.sampleOut.toInt = ⌊(raw.toInt : Rat) / 2 ^ padBits m⌋) ∧
  (∀ (v : FullScale) (s : State), ∃ t, exec (convInstr .highResolution v 0xFFF0#16) s = .next t ∧
    t.sampleOut.toInt = -1 ∧ (0xFFF0#16 >>> 4).toInt = 4095)

/-- 41 R102: `accel_out` is the exact product, and the physical value in g is the sample times the
document's sensitivity, exactly. -/
def Obligations.PhysicalValueIsSampleTimesSensitivity : Prop :=
  ∀ (m : ResMode) (v : FullScale) (raw : Word) (s : State),
    ∃ t, exec (convInstr m v raw) s = .next t ∧
      t.accelOut = BitVec.ofInt 16 (t.sampleOut.toInt * sensK v) ∧
      t.accelOut.toInt = t.sampleOut.toInt * sensK v ∧
      t.physicalValue = .ok ((t.accelOut.toInt : Rat) * (1 / 1000)) ∧
      t.physicalValue = .ok ((t.sampleOut.toInt : Rat) * sensitivity v)

/-- 41 R104: no overflow: the product lies in [-24576, 24564], `to_bits_16` never wraps, and the widest
case reaches both ends. -/
def Obligations.ProductNeverOverflows : Prop :=
  (∀ (m : ResMode) (v : FullScale) (raw : Word) (s : State),
    ∃ t, exec (convInstr m v raw) s = .next t ∧
      -24576 ≤ t.sampleOut.toInt * sensK v ∧ t.sampleOut.toInt * sensK v ≤ 24564 ∧
      t.accelOut.toInt = t.sampleOut.toInt * sensK v) ∧
  (∀ s : State, ∃ lo hi, exec (.convHrG16 0x8000#16) s = .next lo ∧
    exec (.convHrG16 0x7FFF#16) s = .next hi ∧
    lo.sampleOut.toInt = -2048 ∧ lo.accelOut.toInt = -24576 ∧
    hi.sampleOut.toInt = 2047 ∧ hi.accelOut.toInt = 24564)

/-- 41 R105: the shift rounds toward minus infinity: a significant field of all ones gives -1 whatever
the padding, and the conversion is not odd-symmetric. -/
def Obligations.ShiftRoundsTowardMinusInfinity : Prop :=
  (∀ (m : ResMode) (v : FullScale) (raw : Word) (s : State),
    ∃ t, exec (convInstr m v raw) s = .next t ∧
      2 ^ padBits m * t.sampleOut.toInt ≤ raw.toInt ∧
      raw.toInt < 2 ^ padBits m * (t.sampleOut.toInt + 1) ∧
      (raw.extractLsb' (padBits m) (sigBits m) = BitVec.allOnes (sigBits m) →
        t.sampleOut.toInt = -1)) ∧
  (∀ (v : FullScale) (s : State), ∃ t t' t'',
    exec (convInstr .highResolution v 0xFFF8#16) s = .next t ∧
    exec (convInstr .highResolution v 0xFFFF#16) s = .next t' ∧
    exec (convInstr .highResolution v 0x0008#16) s = .next t'' ∧
    t.sampleOut = 0xFFFF#16 ∧ t'.sampleOut = 0xFFFF#16 ∧ t''.sampleOut = 0x0000#16)

/-- 41 R106: any sample from zero up to below one digit gives zero on both outputs, `raw` = 0 among
them. -/
def Obligations.LessThanOneDigitGivesZero : Prop :=
  ∀ (m : ResMode) (v : FullScale) (raw : Word) (s : State),
    0 ≤ raw.toInt → raw.toInt < 2 ^ padBits m →
    Drives (convInstr m v raw) s 0x0000#16 0x0000#16 false

/-- 41 R107: for one sample and mode the acceleration at G4, G8 and G16 is 2, 4 and 12 times that at G2,
exactly. -/
def Obligations.AccelerationIsLinearInTheSensitivity : Prop :=
  ∀ (m : ResMode) (raw : Word) (s : State), ∃ t2 t4 t8 t16,
    exec (convInstr m .g2 raw) s = .next t2 ∧ exec (convInstr m .g4 raw) s = .next t4 ∧
    exec (convInstr m .g8 raw) s = .next t8 ∧ exec (convInstr m .g16 raw) s = .next t16 ∧
    t4.accelOut.toInt = 2 * t2.accelOut.toInt ∧ t8.accelOut.toInt = 4 * t2.accelOut.toInt ∧
    t16.accelOut.toInt = 12 * t2.accelOut.toInt

/-- 41 R108: the sample fills exactly the range of `N` bits, the extremes come from `0x8000` and
`0x7FFF`, and `sample_out[15 : N-1]` are copies of the sign bit. -/
def Obligations.SampleFillsItsRange : Prop :=
  (sigBits .highResolution = 12 ∧ sigBits .normal = 10 ∧ sigBits .lowPower = 8) ∧
  (∀ (m : ResMode) (v : FullScale) (raw : Word) (s : State),
    ∃ t, exec (convInstr m v raw) s = .next t ∧
      -2 ^ (sigBits m - 1) ≤ t.sampleOut.toInt ∧ t.sampleOut.toInt ≤ 2 ^ (sigBits m - 1) - 1 ∧
      (raw = 0x8000#16 → t.sampleOut.toInt = -2 ^ (sigBits m - 1)) ∧
      (raw = 0x7FFF#16 → t.sampleOut.toInt = 2 ^ (sigBits m - 1) - 1) ∧
      ∀ j, sigBits m - 1 ≤ j → j ≤ 15 → t.sampleOut.getLsbD j = t.sampleOut.msb) ∧
  (∀ (m : ResMode) (v : FullScale) (s : State) (x : Int),
    -2 ^ (sigBits m - 1) ≤ x → x ≤ 2 ^ (sigBits m - 1) - 1 →
    ∃ raw t, exec (convInstr m v raw) s = .next t ∧ t.sampleOut.toInt = x)

/-- 41 R109: the document's two-argument converter always shifts by 4; it is `CONV.HR`, and `Eval` with
`res_mode` = 01. At `0x0040`, G2, it gives 4 counts where `CONV.NM.G2` gives 1. -/
def Obligations.ToPhysicalIsTheHighResolutionConversion : Prop :=
  (∀ (raw : Word) (v : FullScale) (s : State),
    toPhysical raw v = convInstr .highResolution v raw ∧
    ∃ t, exec (toPhysical raw v) s = .next t ∧
      t.sampleOut = raw.sshiftRight 4 ∧
      t.conversion = eval raw (fsCode v) 0b01#2) ∧
  (∀ s : State, Drives (toPhysical 0x0040#16 .g2) s 0x0004#16 0x0004#16 false ∧
    Drives (.convNmG2 0x0040#16) s 0x0001#16 0x0001#16 false)

/-- 20 R43: the padding bits change nothing and raise no error: samples that agree on the significant
field give the same outputs. In HighResolution `0x001F` and `0x0010` both give one digit. -/
def Obligations.PaddingBitsAreIgnored : Prop :=
  (∀ (m : ResMode) (v : FullScale) (raw raw' : Word) (s : State),
    raw.extractLsb' (padBits m) (sigBits m) = raw'.extractLsb' (padBits m) (sigBits m) →
    ∃ t t', exec (convInstr m v raw) s = .next t ∧ exec (convInstr m v raw') s = .next t' ∧
      t.outputs = t'.outputs ∧ t.err = false) ∧
  (∀ (v : FullScale) (s : State), ∃ t t',
    exec (convInstr .highResolution v 0x001F#16) s = .next t ∧
    exec (convInstr .highResolution v 0x0010#16) s = .next t' ∧
    t.sampleOut = 0x0001#16 ∧ t'.sampleOut = 0x0001#16)

/-! ### The error output, independence and frames -/

/-- 60 R141: in every evaluation `err` is 1 exactly when its `res_mode` is 11, whatever the other
inputs are. -/
def Obligations.ErrIsSetExactlyByTheReservedMode : Prop :=
  ∀ (i : Instr) (s : State), ∃ t, exec i s = .next t ∧ (t.err = true ↔ t.resMode = 0b11#2)

/-- 60 R142: when `err` is 1 both outputs are driven to zero, and a consumer reads the error, not the
zeros. -/
def Obligations.OutputsAreZeroOnError : Prop :=
  ∀ (i : Instr) (s t : State), exec i s = .next t → t.err = true →
    t.sampleOut = 0x0000#16 ∧ t.accelOut = 0x0000#16 ∧
    t.conversion = .error (.unrecognizedBitPattern .resMode 0b11#2)

/-- 60 R143: at most one cause is ever reported, and `fs_field` is valid in every evaluation, also with
`err` = 1. -/
def Obligations.FsFieldIsValidInEveryEvaluation : Prop :=
  ∀ (i : Instr) (s : State), ∃ t, exec i s = .next t ∧
    (t.reportedError = none ∨
      t.reportedError = some (.unrecognizedBitPattern .resMode 0b11#2)) ∧
    t.fsField = t.ctrl4In.extractLsb' 4 2

/-- 10 R28: two evaluations with equal inputs give equal outputs, whatever came before. More: the
converter's outputs depend on its three inputs alone and `fs_field` on `ctrl4_in` alone. -/
def Obligations.EqualInputsGiveEqualOutputs : Prop :=
  ∀ s₁ s₂ t₁ t₂ : State, step s₁ = .next t₁ → step s₂ = .next t₂ →
    (t₁.inputs = t₂.inputs → t₁.outputs = t₂.outputs) ∧
    (t₁.raw = t₂.raw → t₁.fs = t₂.fs → t₁.resMode = t₂.resMode →
      t₁.sampleOut = t₂.sampleOut ∧ t₁.accelOut = t₂.accelOut ∧ t₁.err = t₂.err) ∧
    (t₁.ctrl4In = t₂.ctrl4In → t₁.fsField = t₂.fsField)

/-- 20 R47, 60 R144: no evaluation sees another: a conversion after any other V20 evaluation, one with
the error among them, is the conversion without it. -/
def Obligations.ConversionForgetsTheOneBefore : Prop :=
  ∀ (i j : Instr) (s : State), i.usesConverter = true → j.usesConverter = true →
    ∃ t, exec j s = .next t ∧ exec i t = exec i s

/-- 20 R45: evaluating the same inputs again changes nothing. -/
def Obligations.RepeatedEvaluationChangesNothing : Prop :=
  ∀ (i : Instr) (s : State), ∃ t, exec i s = .next t ∧ exec i t = .next t

/-- The frame of the thirteen V20 operations: `ctrl4_in` holds, no vector is taken or added, and on
settled ports `fs_field` holds too (30 R60, R65; log entry 3). -/
def Obligations.ConverterOperationsLeaveTheDecoderAlone : Prop :=
  ∀ (i : Instr) (s : State), i.usesConverter = true →
    ∃ t, exec i s = .next t ∧ t.ctrl4In = s.ctrl4In ∧ t.pending = s.pending ∧
      (Settled s → t.fsField = s.fsField)

/-- The frame of `DECFS`: the converter's inputs hold, no vector is taken or added, and on settled
ports nothing changes but `ctrl4_in` and `fs_field` (40 R80, 10 R24; log entry 3). -/
def Obligations.DecfsLeavesTheConverterAlone : Prop :=
  ∀ (b : Byte) (s : State), ∃ t, exec (.decfs b) s = .next t ∧
    t.raw = s.raw ∧ t.fs = s.fs ∧ t.resMode = s.resMode ∧ t.pending = s.pending ∧
    (Settled s → t = { s with ctrl4In := b, fsField := b.extractLsb' 4 2 })

/-- 70 R161, 10 R24: an integrator who decodes a CTRL_REG4 byte and drives `fs` from `fs_field` converts
at the byte's own Full-Scale range. -/
def Obligations.FsDrivenFromFsFieldConvertsAtTheBytesRange : Prop :=
  ∀ (b : Byte) (resMode : Code) (raw : Word) (s : State), ∃ t u,
    exec (.decfs b) s = .next t ∧
    exec (decodeV20 (v20 (cfgWord resMode t.fsField) raw)) t = .next u ∧
    u.fs = b.extractLsb' 4 2 ∧ u.conversion = eval raw (b.extractLsb' 4 2) resMode
end

