-- ==== Sys2Proof/Laws/Decode.lean ====
section
/-!
SUPPORT. The bits of the vectors the encoder writes, and what the decoder gives for them.
-/

namespace Sys2Proof

theorem getLsbD_cfgWord (resMode fs : Code) (j : Nat) :
    (cfgWord resMode fs).getLsbD j = if j < 2 then fs.getLsbD j else resMode.getLsbD (j - 2) :=
  BitVec.getLsbD_append

theorem getLsbD_v20 (cfg : BitVec 4) (raw : Word) (j : Nat) :
    (v20 cfg raw).getLsbD j = if j < 16 then raw.getLsbD j else cfg.getLsbD (j - 16) :=
  BitVec.getLsbD_append

theorem getLsbD_topByte (bits : BitVec 4) (j : Nat) : (topByte bits).getLsbD j = bits.getLsbD j := by
  have h : (topByte bits).getLsbD j = if j < 4 then bits.getLsbD j else (0#4).getLsbD (j - 4) :=
    BitVec.getLsbD_append
  rw [h]
  split
  · rfl
  · simp only [BitVec.getLsbD_zero]
    exact (BitVec.getLsbD_of_ge bits j (by omega)).symm

theorem getLsbD_joinV20 (b0 b1 b2 : Byte) (j : Nat) :
    (joinV20 b0 b1 b2).getLsbD j =
      if j < 16 then (if j < 8 then b0.getLsbD j else b1.getLsbD (j - 8))
      else (b2.extractLsb' 0 4).getLsbD (j - 16) := by
  have h : (joinV20 b0 b1 b2).getLsbD j =
      if j < 16 then (b1 ++ b0).getLsbD j else (b2.extractLsb' 0 4).getLsbD (j - 16) :=
    BitVec.getLsbD_append
  rw [h, BitVec.getLsbD_append]

@[simp] theorem v20_resMode (resMode fs : Code) (raw : Word) :
    (v20 (cfgWord resMode fs) raw).extractLsb' 18 2 = resMode := by
  ext j hj
  simp [BitVec.getElem_extractLsb', getLsbD_v20, getLsbD_cfgWord, show ¬ 18 + j < 16 by omega,
    show ¬ 18 + j - 16 < 2 by omega, show 18 + j - 16 - 2 = j by omega, BitVec.getLsbD_eq_getElem hj]

@[simp] theorem v20_fs (resMode fs : Code) (raw : Word) :
    (v20 (cfgWord resMode fs) raw).extractLsb' 16 2 = fs := by
  ext j hj
  simp [BitVec.getElem_extractLsb', getLsbD_v20, getLsbD_cfgWord, hj]

@[simp] theorem v20_raw (cfg : BitVec 4) (raw : Word) : (v20 cfg raw).extractLsb' 0 16 = raw := by
  ext j hj
  simp [BitVec.getElem_extractLsb', getLsbD_v20, hj]

/-- A vector is its three fields put together. -/
theorem v20_of_fields (v : BitVec 20) :
    v20 (cfgWord (v.extractLsb' 18 2) (v.extractLsb' 16 2)) (v.extractLsb' 0 16) = v := by
  apply BitVec.eq_of_getLsbD_eq
  intro j hj
  rw [getLsbD_v20, getLsbD_cfgWord]
  simp only [BitVec.getLsbD_extractLsb']
  split
  · simp [*]
  · split
    · simp [*, show 16 + (j - 16) = j by omega]
    · simp [show j - 16 - 2 < 2 by omega, show 18 + (j - 16 - 2) = j by omega]

/-- The top byte of a vector has nothing above it, and gives its four bits back. -/
@[simp] theorem topByte_high (bits : BitVec 4) : (topByte bits).extractLsb' 4 4 = 0#4 := by
  ext j hj
  rw [BitVec.getElem_extractLsb', getLsbD_topByte, BitVec.getLsbD_of_ge bits (4 + j) (by omega)]
  simp

@[simp] theorem topByte_low (bits : BitVec 4) : (topByte bits).extractLsb' 0 4 = bits := by
  ext j hj
  rw [BitVec.getElem_extractLsb', getLsbD_topByte]
  simp [BitVec.getLsbD_eq_getElem hj]

/-- A byte with nothing above its low four bits is the top byte of those bits. -/
theorem topByte_of_high_zero (b : Byte) (h : b.extractLsb' 4 4 = 0#4) :
    topByte (b.extractLsb' 0 4) = b := by
  revert b
  decide

/-- The bytes of a vector, put together again, are the vector. -/
@[simp] theorem joinV20_bytes (v : BitVec 20) :
    joinV20 (v.extractLsb' 0 8) (v.extractLsb' 8 8) (topByte (v.extractLsb' 16 4)) = v := by
  apply BitVec.eq_of_getLsbD_eq
  intro j hj
  rw [getLsbD_joinV20, topByte_low]
  simp only [BitVec.getLsbD_extractLsb']
  split
  · split
    · simp [*]
    · simp [show j - 8 < 8 by omega, show 8 + (j - 8) = j by omega]
  · simp [show j - 16 < 4 by omega, show 16 + (j - 16) = j by omega]

/-- Three bytes with nothing above the 20 bits are the bytes of the vector they join to. -/
theorem v20Stimulus_joinV20 (b0 b1 b2 : Byte) (h : b2.extractLsb' 4 4 = 0#4) :
    v20Stimulus (joinV20 b0 b1 b2) = { port := .v20, bytes := [b0, b1, b2] } := by
  have e0 : (joinV20 b0 b1 b2).extractLsb' 0 8 = b0 := by
    apply BitVec.eq_of_getLsbD_eq
    intro j hj
    rw [BitVec.getLsbD_extractLsb', getLsbD_joinV20]
    simp [hj, show j < 16 by omega]
  have e1 : (joinV20 b0 b1 b2).extractLsb' 8 8 = b1 := by
    apply BitVec.eq_of_getLsbD_eq
    intro j hj
    rw [BitVec.getLsbD_extractLsb', getLsbD_joinV20]
    simp [hj, show 8 + j < 16 by omega]
  have e2 : (joinV20 b0 b1 b2).extractLsb' 16 4 = b2.extractLsb' 0 4 := by
    apply BitVec.eq_of_getLsbD_eq
    intro j hj
    rw [BitVec.getLsbD_extractLsb', getLsbD_joinV20]
    simp [hj]
  rw [v20Stimulus, e0, e1, e2, topByte_of_high_zero b2 h]

/-- A V20 vector with given fields selects by those fields. -/
@[simp] theorem decodeV20_v20 (resMode fs : Code) (raw : Word) :
    decodeV20 (v20 (cfgWord resMode fs) raw) = selectOp resMode fs raw := by
  simp [decodeV20]

/-- Decoding the bytes of a V20 vector decodes the vector. -/
theorem decode_v20Stimulus (v : BitVec 20) : decode (v20Stimulus v) = .ok (decodeV20 v) := by
  simp [v20Stimulus, decode]

/-- Decoding a CTRL4 byte. -/
theorem decode_ctrl4Stimulus (b : Byte) : decode (ctrl4Stimulus b) = .ok (.decfs b) := rfl

/-- What an accepted vector is: three bytes with nothing above the 20 bits, or one byte. -/
theorem decode_ok_cases {v : Stimulus} {i : Instr} (h : decode v = .ok i) :
    (∃ b0 b1 b2, v = { port := .v20, bytes := [b0, b1, b2] } ∧ b2.extractLsb' 4 4 = 0#4 ∧
      i = decodeV20 (joinV20 b0 b1 b2)) ∨
    (∃ b, v = ctrl4Stimulus b ∧ i = .decfs b) := by
  obtain ⟨port, bytes⟩ := v
  unfold decode at h
  split at h
  · rename_i b0 b1 b2 hp hb
    split at h
    · cases h
      cases hp
      cases hb
      exact .inl ⟨b0, b1, b2, rfl, ‹_›, rfl⟩
    · cases h
  · rename_i b hp hb
    cases h
    cases hp
    cases hb
    exact .inr ⟨b, rfl, rfl⟩
  · cases h

end Sys2Proof
end

