-- ==== Sys2Proof/Laws/Operands.lean ====
section
/-!
SUPPORT. One lemma per operand function: the sample operand as a shift and as a floor, its range, and
the product without a wrap.
-/

namespace Sys2Proof.Machine

/-- The mask and shift of `DECFS` select bits 5:4. -/
theorem decFs_eq_extract (b : Byte) : decFs b = b.extractLsb' 4 2 := by
  revert b
  decide

/-- A sign-extended top field is the arithmetic shift that drops the bits below it. -/
theorem sext_top_field_eq_sshiftRight (raw : Word) (s : Nat) (hs : s < 16) :
    (raw.extractLsb' s (16 - s)).signExtend 16 = raw.sshiftRight s := by
  ext j hj
  rw [BitVec.getElem_signExtend, BitVec.getElem_sshiftRight]
  by_cases h : j < 16 - s
  · have h' : s + j < 16 := by omega
    simp [h, h', BitVec.getElem_extractLsb', BitVec.getLsbD_eq_getElem]
  · have h' : ¬ s + j < 16 := by omega
    have h15 : s + (16 - s - 1) = 15 := by omega
    simp [h, h', BitVec.msb_eq_getLsbD_last, h15, show 0 < 16 - s by omega]

/-- The sample operand is the arithmetic shift by the padding. -/
theorem sampleOperand_eq_sshiftRight (m : ResMode) (raw : Word) :
    sampleOperand m raw = raw.sshiftRight (padBits m) := by
  cases m
  · exact sext_top_field_eq_sshiftRight raw 4 (by decide)
  · exact sext_top_field_eq_sshiftRight raw 6 (by decide)
  · exact sext_top_field_eq_sshiftRight raw 8 (by decide)

/-- The arithmetic shift is the floor of the quotient (`/` on `Int` rounds down for a positive
divisor). -/
theorem sshiftRight_toInt (raw : Word) (s : Nat) : (raw.sshiftRight s).toInt = raw.toInt / 2 ^ s := by
  rw [BitVec.toInt_sshiftRight, Int.shiftRight_eq_div_pow]
  norm_cast

/-- The value of a raw word lies in the 16-bit two's-complement range. -/
theorem word_toInt_range (raw : Word) : -32768 ≤ raw.toInt ∧ raw.toInt ≤ 32767 := by
  have h1 := BitVec.le_toInt raw
  have h2 := BitVec.toInt_lt (x := raw)
  simp at h1 h2
  omega

/-- A product inside the 16-bit range does not wrap. -/
theorem scale_toInt (d : Word) (k : Nat) (lo : -32768 ≤ d.toInt * k) (hi : d.toInt * k ≤ 32767) :
    (scale d k).toInt = d.toInt * k := by
  unfold scale toBits16
  rw [BitVec.toInt_ofInt, Int.bmod_eq_of_le] <;> omega

end Sys2Proof.Machine
end

