-- ==== Sys2Proof/Laws/PerInstr.lean ====
section
/-!
SUPPORT. Statements about every operation as data, one lemma per constructor.
-/

namespace Sys2Proof.Laws.EncodeFits

/-- The encoder's vector fits its input format (30 R61, R62). -/
def Statement (i : Sys2Proof.Instr) : Prop :=
  (Sys2Proof.encode i).wf = true

/-- A V20 vector's bytes have nothing above its 20 bits. -/
theorem v20Stimulus_wf (v : BitVec 20) : (Sys2Proof.v20Stimulus v).wf = true := by
  simp [Sys2Proof.v20Stimulus, Sys2Proof.Stimulus.wf]

theorem convHrG2 (raw : Sys2Proof.Word) : Statement (.convHrG2 raw) := v20Stimulus_wf _
theorem convHrG4 (raw : Sys2Proof.Word) : Statement (.convHrG4 raw) := v20Stimulus_wf _
theorem convHrG8 (raw : Sys2Proof.Word) : Statement (.convHrG8 raw) := v20Stimulus_wf _
theorem convHrG16 (raw : Sys2Proof.Word) : Statement (.convHrG16 raw) := v20Stimulus_wf _
theorem convNmG2 (raw : Sys2Proof.Word) : Statement (.convNmG2 raw) := v20Stimulus_wf _
theorem convNmG4 (raw : Sys2Proof.Word) : Statement (.convNmG4 raw) := v20Stimulus_wf _
theorem convNmG8 (raw : Sys2Proof.Word) : Statement (.convNmG8 raw) := v20Stimulus_wf _
theorem convNmG16 (raw : Sys2Proof.Word) : Statement (.convNmG16 raw) := v20Stimulus_wf _
theorem convLpG2 (raw : Sys2Proof.Word) : Statement (.convLpG2 raw) := v20Stimulus_wf _
theorem convLpG4 (raw : Sys2Proof.Word) : Statement (.convLpG4 raw) := v20Stimulus_wf _
theorem convLpG8 (raw : Sys2Proof.Word) : Statement (.convLpG8 raw) := v20Stimulus_wf _
theorem convLpG16 (raw : Sys2Proof.Word) : Statement (.convLpG16 raw) := v20Stimulus_wf _
theorem convRsvd (fs : Sys2Proof.Code) (raw : Sys2Proof.Word) : Statement (.convRsvd fs raw) :=
  v20Stimulus_wf _
theorem decfs (byte : Sys2Proof.Byte) : Statement (.decfs byte) := rfl

end Sys2Proof.Laws.EncodeFits
end

