-- ==== Sys2Proof/Laws/State.lean ====
section
/-!
SUPPORT. What each update of State leaves in each field.
-/

namespace Sys2Proof.Machine

section driveConverter
variable (rm fs : Code) (raw d a : Word) (s : State)

@[simp] theorem driveConverter_raw : (driveConverter rm fs raw d a s).raw = raw := rfl
@[simp] theorem driveConverter_fs : (driveConverter rm fs raw d a s).fs = fs := rfl
@[simp] theorem driveConverter_resMode : (driveConverter rm fs raw d a s).resMode = rm := rfl
@[simp] theorem driveConverter_ctrl4In : (driveConverter rm fs raw d a s).ctrl4In = s.ctrl4In := rfl
@[simp] theorem driveConverter_sampleOut : (driveConverter rm fs raw d a s).sampleOut = d := rfl
@[simp] theorem driveConverter_accelOut : (driveConverter rm fs raw d a s).accelOut = a := rfl
@[simp] theorem driveConverter_err : (driveConverter rm fs raw d a s).err = errFlag rm := rfl
@[simp] theorem driveConverter_fsField : (driveConverter rm fs raw d a s).fsField = decFs s.ctrl4In := rfl
@[simp] theorem driveConverter_pending : (driveConverter rm fs raw d a s).pending = s.pending := rfl

end driveConverter

section driveFsDecoder
variable (b : Byte) (s : State)

@[simp] theorem driveFsDecoder_raw : (driveFsDecoder b s).raw = s.raw := rfl
@[simp] theorem driveFsDecoder_fs : (driveFsDecoder b s).fs = s.fs := rfl
@[simp] theorem driveFsDecoder_resMode : (driveFsDecoder b s).resMode = s.resMode := rfl
@[simp] theorem driveFsDecoder_ctrl4In : (driveFsDecoder b s).ctrl4In = b := rfl
@[simp] theorem driveFsDecoder_sampleOut : (driveFsDecoder b s).sampleOut = (outputsOf (eval s.raw s.fs s.resMode)).1 := rfl
@[simp] theorem driveFsDecoder_accelOut : (driveFsDecoder b s).accelOut = (outputsOf (eval s.raw s.fs s.resMode)).2 := rfl
@[simp] theorem driveFsDecoder_err : (driveFsDecoder b s).err = errFlag s.resMode := rfl
@[simp] theorem driveFsDecoder_fsField : (driveFsDecoder b s).fsField = decFs b := rfl
@[simp] theorem driveFsDecoder_pending : (driveFsDecoder b s).pending = s.pending := rfl

end driveFsDecoder

section withPending
variable (s : State) (vs : List Stimulus)

@[simp] theorem withPending_raw : (s.withPending vs).raw = s.raw := rfl
@[simp] theorem withPending_fs : (s.withPending vs).fs = s.fs := rfl
@[simp] theorem withPending_resMode : (s.withPending vs).resMode = s.resMode := rfl
@[simp] theorem withPending_ctrl4In : (s.withPending vs).ctrl4In = s.ctrl4In := rfl
@[simp] theorem withPending_sampleOut : (s.withPending vs).sampleOut = s.sampleOut := rfl
@[simp] theorem withPending_accelOut : (s.withPending vs).accelOut = s.accelOut := rfl
@[simp] theorem withPending_err : (s.withPending vs).err = s.err := rfl
@[simp] theorem withPending_fsField : (s.withPending vs).fsField = s.fsField := rfl
@[simp] theorem withPending_pending : (s.withPending vs).pending = vs := rfl

end withPending

end Sys2Proof.Machine
end

