-- ==== Sys2Proof/Laws/Step.lean ====
section
/-!
SUPPORT. Everything a shared operation or a step can do, said once.
-/

namespace Sys2Proof.Machine

/-- What taking the next vector can answer. -/
theorem fetch_cases {s s' : State} {i : Instr} (h : fetch s = .ok (i, s')) :
    (s.pending = [] ∧ i = decodeV20 s.heldV20 ∧ s' = s) ∨
    (∃ v rest, s.pending = v :: rest ∧ decode v = .ok i ∧ s' = s.withPending rest) := by
  unfold fetch at h
  split at h
  · cases h
    exact .inl ⟨‹_›, rfl, rfl⟩
  · split at h
    · cases h
      exact .inr ⟨_, _, ‹_›, ‹_›, rfl⟩
    · cases h

/-- A step that answers a next state ran one operation, fetched first. -/
theorem step_next_cases {s t : State} (h : step s = .next t) :
    ∃ i s', fetch s = .ok (i, s') ∧ exec i s' = .next t := by
  unfold step at h
  split at h
  · exact ⟨_, _, ‹_›, h⟩
  · cases h

/-- A step stops only where no vector can be taken. -/
theorem step_fault_cases {s : State} {r : Fault} (h : step s = .fault r) :
    ∃ why, fetch s = .error why ∧ r = .notAnEvaluation why := by
  unfold step at h
  split at h
  · rename_i i s' _
    cases i <;> cases h
  · cases h
    exact ⟨_, ‹_›, rfl⟩

/-- An operation either drives the converter or drives the Full-Scale field decoder. -/
theorem exec_next_cases {i : Instr} {s t : State} (h : exec i s = .next t) :
    (i.usesConverter = true ∧ ∃ rm fs raw d a, t = driveConverter rm fs raw d a s) ∨
    (∃ b, i = .decfs b ∧ t = driveFsDecoder b s) := by
  cases i
  case decfs b =>
    cases h
    exact .inr ⟨b, rfl, rfl⟩
  all_goals
    cases h
    exact .inl ⟨rfl, _, _, _, _, _, rfl⟩

/-- An evaluation takes or adds no vector. -/
theorem exec_pending {i : Instr} {s t : State} (h : exec i s = .next t) : t.pending = s.pending := by
  obtain ⟨-, rm, fs, raw, d, a, rfl⟩ | ⟨b, rfl, rfl⟩ := exec_next_cases h <;> simp

/-- On any machine, a run that starts with a step that answers goes on from its answer. -/
theorem core_run_succ (M : Host.Core) {s t : M.State} (h : M.step s = .next t) (k : Nat) :
    M.run (k + 1) s = M.run k t := by
  simp [Host.Core.run, h]

/-- The same for this machine. -/
theorem run_succ_of_step {s t : State} (h : step s = .next t) (k : Nat) :
    Host.Core.run Sys2Proof.core (k + 1) s = Host.Core.run Sys2Proof.core k t :=
  core_run_succ Sys2Proof.core h k

/-- The reported error is the reserved mode's, where `err` follows `res_mode`. -/
theorem reportedError_of_flag {s : State} (h : s.err = errFlag s.resMode) :
    s.reportedError =
      if s.resMode = 0b11#2 then some (.unrecognizedBitPattern .resMode 0b11#2) else none := by
  unfold State.reportedError
  rw [h]
  unfold errFlag
  by_cases h3 : s.resMode = 0b11#2 <;> simp [h3]

end Sys2Proof.Machine
end

