-- ==== Sys2Proof/Tests/Slice0.lean ====
section
/-!
SUPPORT. The model's own tests. Expected values are the spec's: "95 s3.1" is section 3.1 of
spec/95_test_vectors.md, "41 R113" a rule's own corner case or example.
-/

namespace Sys2Proof.Tests

open Sys2Proof Sys2Proof.Machine

/-- The output ports after an operation, if it completes. -/
def after (i : Instr) (s : State) : Option Outputs :=
  match exec i s with
  | .next t => some t.outputs
  | .fault _ => none
  | .refused _ => none

/-- The output ports after a step, if it answers. -/
def afterStep (s : State) : Option Outputs :=
  match step s with
  | .next t => some t.outputs
  | .fault _ => none
  | .refused _ => none

/-- The fault a step stops with, if it stops with one. -/
def stepFault (s : State) : Option Fault :=
  match step s with
  | .next _ => none
  | .fault r => some r
  | .refused _ => none

/-- Reset ports but for a CTRL_REG4 byte of `0x90` and its field, G4. -/
def atG4 : State :=
  { State.reset with ctrl4In := 0x90#8, fsField := 0b01#2 }

/-! ### Well-formedness: each check refuses an ill-formed term -/

theorem test_wf_v20_fits : Stimulus.wf { port := .v20, bytes := [0x10#8, 0x00#8, 0x04#8] } = true := by
  decide
theorem test_wf_v20_bits_above :
    Stimulus.wf { port := .v20, bytes := [0x10#8, 0x00#8, 0x14#8] } = false := by decide
theorem test_wf_v20_length : Stimulus.wf { port := .v20, bytes := [0x10#8, 0x00#8] } = false := by
  decide
theorem test_wf_ctrl4_length : Stimulus.wf { port := .ctrl4, bytes := [] } = false := by decide
theorem test_wf_line_conv_raw : AsmLine.wf (.conv .normal .g2 65536) = false := by decide
theorem test_wf_line_rsvd_fs : AsmLine.wf (.rsvd 4 0) = false := by decide
theorem test_wf_line_rsvd_raw : AsmLine.wf (.rsvd 3 65536) = false := by decide
theorem test_wf_line_decfs_byte : AsmLine.wf (.decfs 256) = false := by decide
theorem test_wf_line_to_physical_raw : AsmLine.wf (.toPhysical 65536 .g2) = false := by decide

/-! ### Decoding, from words written out from 30 R61, R62 and R65 -/

theorem test_decode_hr_g2 : decodeV20 0b0100_0000_0000_0001_0000#20 = .convHrG2 0x0010#16 := by decide
theorem test_decode_hr_g4 : decodeV20 0b0101_1111_1111_1111_0000#20 = .convHrG4 0xFFF0#16 := by decide
theorem test_decode_hr_g8 : decodeV20 0b0110_0111_1111_1111_0000#20 = .convHrG8 0x7FF0#16 := by decide
theorem test_decode_hr_g16 : decodeV20 0b0111_1000_0000_0000_0000#20 = .convHrG16 0x8000#16 := by decide
theorem test_decode_nm_g2 : decodeV20 0b0000_0000_0000_0100_0000#20 = .convNmG2 0x0040#16 := by decide
theorem test_decode_nm_g4 : decodeV20 0b0001_1111_1111_1100_0000#20 = .convNmG4 0xFFC0#16 := by decide
theorem test_decode_nm_g8 : decodeV20 0b0010_0100_0000_0000_0000#20 = .convNmG8 0x4000#16 := by decide
theorem test_decode_nm_g16 : decodeV20 0b0011_0111_1111_1111_1111#20 = .convNmG16 0x7FFF#16 := by decide
theorem test_decode_lp_g2 : decodeV20 0b1000_0000_0001_0000_0000#20 = .convLpG2 0x0100#16 := by decide
theorem test_decode_lp_g4 : decodeV20 0b1001_1000_0000_0000_0000#20 = .convLpG4 0x8000#16 := by decide
theorem test_decode_lp_g8 : decodeV20 0b1010_0000_0000_1111_1111#20 = .convLpG8 0x00FF#16 := by decide
theorem test_decode_lp_g16 : decodeV20 0b1011_1111_1111_0000_0000#20 = .convLpG16 0xFF00#16 := by decide
theorem test_decode_rsvd_00 : decodeV20 0b1100_0000_0000_0000_0000#20 = .convRsvd 0b00#2 0x0000#16 := by decide
theorem test_decode_rsvd_10 : decodeV20 0b1110_0111_1111_1111_1111#20 = .convRsvd 0b10#2 0x7FFF#16 := by decide
theorem test_decode_decfs : decodeTableWord 8 0b1001_0000 = some (.decfs 0x90#8) := by decide
theorem test_decode_table_word_24 :
    decodeTableWord 24 0b1101_0000_0000_0001_0000 = some (.convRsvd 0b01#2 0x0010#16) := by decide
theorem test_decode_table_word_bits_above : decodeTableWord 24 0x140010 = none := by decide
theorem test_decode_bytes_rejected :
    decode { port := .ctrl4, bytes := [0x00#8, 0x00#8] } = .error (.wrongLength .ctrl4 2) := by rfl
theorem test_encode_hr_g2 :
    encode (.convHrG2 0x0010#16) = { port := .v20, bytes := [0x10#8, 0x00#8, 0x04#8] } := by decide
theorem test_assemble_to_physical :
    assemble (.toPhysical 0x4000 .g16) = some (.convHrG16 0x4000#16) := by decide

/-- The mask and match of each V20 row of spec/opcode_table.json. -/
def v20Rows : List (BitVec 20 × BitVec 20) :=
  [(0xF0000#20, 0x40000#20), (0xF0000#20, 0x50000#20), (0xF0000#20, 0x60000#20),
   (0xF0000#20, 0x70000#20), (0xF0000#20, 0x00000#20), (0xF0000#20, 0x10000#20),
   (0xF0000#20, 0x20000#20), (0xF0000#20, 0x30000#20), (0xF0000#20, 0x80000#20),
   (0xF0000#20, 0x90000#20), (0xF0000#20, 0xA0000#20), (0xF0000#20, 0xB0000#20),
   (0xC0000#20, 0xC0000#20)]

theorem test_rows_do_not_overlap :
    v20Rows.Pairwise (fun r q => (r.2 ^^^ q.2) &&& (r.1 &&& q.1) ≠ 0#20) := by decide

/-! ### The operations -/

/-- 95 s3.1. -/
theorem test_exec_hr_g2_wraps_down :
    after (.convHrG2 0xFFF8#16) atG4 = some ⟨0xFFFF#16, 0xFFFF#16, false, 0b01#2⟩ := by decide
/-- 95 s3.1. -/
theorem test_exec_hr_g4 :
    after (.convHrG4 0xABCD#16) atG4 = some ⟨0xFABC#16, 0xF578#16, false, 0b01#2⟩ := by decide
/-- 95 s3.1. -/
theorem test_exec_hr_g8 :
    after (.convHrG8 0x1234#16) atG4 = some ⟨0x0123#16, 0x048C#16, false, 0b01#2⟩ := by decide
/-- 95 s3.1. -/
theorem test_exec_hr_g16_lowest :
    after (.convHrG16 0x8000#16) atG4 = some ⟨0xF800#16, 0xA000#16, false, 0b01#2⟩ := by decide
/-- 95 s3.1. -/
theorem test_exec_hr_g16_highest :
    after (.convHrG16 0x7FFF#16) atG4 = some ⟨0x07FF#16, 0x5FF4#16, false, 0b01#2⟩ := by decide
/-- 95 s3.2. -/
theorem test_exec_nm_g2_padding :
    after (.convNmG2 0x003F#16) atG4 = some ⟨0x0000#16, 0x0000#16, false, 0b01#2⟩ := by decide
/-- 95 s3.2. -/
theorem test_exec_nm_g4 :
    after (.convNmG4 0xABCD#16) atG4 = some ⟨0xFEAF#16, 0xFD5E#16, false, 0b01#2⟩ := by decide
/-- 95 s3.2. -/
theorem test_exec_nm_g8 :
    after (.convNmG8 0xC000#16) atG4 = some ⟨0xFF00#16, 0xFC00#16, false, 0b01#2⟩ := by decide
/-- 95 s3.2. -/
theorem test_exec_nm_g16 :
    after (.convNmG16 0x1234#16) atG4 = some ⟨0x0048#16, 0x0360#16, false, 0b01#2⟩ := by decide
/-- 95 s3.3. -/
theorem test_exec_lp_g2 :
    after (.convLpG2 0xABCD#16) atG4 = some ⟨0xFFAB#16, 0xFFAB#16, false, 0b01#2⟩ := by decide
/-- 95 s3.3. -/
theorem test_exec_lp_g4 :
    after (.convLpG4 0x7FF0#16) atG4 = some ⟨0x007F#16, 0x00FE#16, false, 0b01#2⟩ := by decide
/-- 95 s3.3. -/
theorem test_exec_lp_g8 :
    after (.convLpG8 0x1234#16) atG4 = some ⟨0x0012#16, 0x0048#16, false, 0b01#2⟩ := by decide
/-- 95 s3.3. -/
theorem test_exec_lp_g16 :
    after (.convLpG16 0xABCD#16) atG4 = some ⟨0xFFAB#16, 0xFC04#16, false, 0b01#2⟩ := by decide
/-- 95 s4. -/
theorem test_exec_rsvd :
    after (.convRsvd 0b10#2 0x7FFF#16) atG4 = some ⟨0x0000#16, 0x0000#16, true, 0b01#2⟩ := by decide
/-- 95 s2.1. -/
theorem test_exec_decfs_all_ones :
    after (.decfs 0xFF#8) atG4 = some ⟨0x0000#16, 0x0000#16, false, 0b11#2⟩ := by decide
/-- 95 s2.1. -/
theorem test_exec_decfs_all_but_field :
    after (.decfs 0xCF#8) atG4 = some ⟨0x0000#16, 0x0000#16, false, 0b00#2⟩ := by decide

/-- 40 R82. -/
theorem test_enc_fs_pos_g4 : encFsPos .g4 = 0b0001_0000#8 := by decide

/-- 10 R23, 95 W2: the physical value of one negative digit at G2 is -0.001. -/
theorem test_physical_value : gOfCounts 0xFFFF#16 = -1 / 1000 := by
  norm_num [gOfCounts, BitVec.toInt]

/-! ### Steps -/

/-- 95 P1 step 2, as the first vector after reset. -/
theorem test_step_first_vector :
    afterStep (State.reset.withFetchWord 24 0x50010) = some ⟨0x0001#16, 0x0002#16, false, 0b00#2⟩ := by
  decide
/-- 95 P1 step 1, as the first vector after reset. -/
theorem test_step_first_byte :
    afterStep (State.reset.withFetchWord 8 0x90) = some ⟨0x0000#16, 0x0000#16, false, 0b01#2⟩ := by
  decide
/-- 95 P3 steps 1 and 2: after the reserved mode the next conversion is the normal one. -/
theorem test_step_after_error :
    afterStep { atG4 with
      raw := 0x1234#16, fs := 0b10#2, resMode := 0b11#2, err := true,
      pending := [{ port := .v20, bytes := [0x34#8, 0x12#8, 0x0A#8] }] } =
    some ⟨0x0012#16, 0x0048#16, false, 0b01#2⟩ := by decide
/-- Log entry 4. -/
theorem test_step_unfitting_vector :
    stepFault (State.reset.withFetchWord 24 0x140010) =
      some (.notAnEvaluation (.bitsAboveVector 0x1#4)) := by decide
/-- 70 R160: with nothing applied, the outputs stay `Eval` of the inputs. -/
theorem test_step_nothing_pending : afterStep State.reset = some State.reset.outputs := by decide

/-! ### Witnesses: the hypotheses of each statement are met by a concrete state and operands -/

theorem witness_EncodingTheDecodedVectorGivesItBack :
    decode { port := .v20, bytes := [0x10#8, 0x00#8, 0x04#8] } = .ok (.convHrG2 0x0010#16) := by rfl
theorem witness_AssemblerLinesNameTheirOperations : AsmLine.wf (.rsvd 4 65536) = false := by decide
theorem witness_EveryStepSettlesThePorts : ∃ s', step (atG4.withFetchWord 24 0xD0010) = .next s' :=
  ⟨_, rfl⟩
theorem witness_RunsOfFittingVectorsNeverStop :
    (atG4.withPending [v20Stimulus 0x78000#20, ctrl4Stimulus 0x30#8]).pendingFits := by
  unfold State.pendingFits
  decide
theorem witness_RunEndsAtEvalOfItsLastVector :
    ∀ v ∈ [ctrl4Stimulus 0xFF#8, v20Stimulus 0xFFFFF#20, v20Stimulus 0x00000#20], v.wf = true := by
  decide
theorem witness_StepRunsTheDecodedOperation_pending :
    (atG4.withFetchWord 24 0xB7FFF).pending = [v20Stimulus 0xB7FFF#20] ∧
    decode (v20Stimulus 0xB7FFF#20) = .ok (.convLpG16 0x7FFF#16) := ⟨rfl, rfl⟩
theorem witness_StepRunsTheDecodedOperation_none : State.reset.pending = [] := rfl
theorem witness_StepRunsTheDecodedOperation_word :
    decodeTableWord 24 0xFFFFF = some (.convRsvd 0b11#2 0xFFFF#16) := by decide
theorem witness_UnfittingVectorStopsTheStep_bits :
    (atG4.withFetchWord 24 0x100000).pending =
      [{ port := .v20, bytes := [0x00#8, 0x00#8, 0x10#8] }] ∧
    decode { port := .v20, bytes := [0x00#8, 0x00#8, 0x10#8] } = .error (.bitsAboveVector 0x1#4) :=
  ⟨rfl, rfl⟩
theorem witness_UnfittingVectorStopsTheStep_length :
    (atG4.withPending [{ port := .ctrl4, bytes := [] }]).pending =
      [{ port := .ctrl4, bytes := [] }] ∧
    decode { port := .ctrl4, bytes := [] } = .error (.wrongLength .ctrl4 0) := ⟨rfl, rfl⟩
theorem witness_ConversionsFollowTheirRules_zeros :
    0x000F#16 ≤ 0x000F#16 ∧ 0x003F#16 ≤ 0x003F#16 ∧ 0x00FF#16 ≤ 0x00FF#16 := by decide
theorem witness_ReservedModeReportsTheError : Instr.usesConverter (.convLpG8 0x1234#16) = true := rfl
theorem witness_DecfsGivesTheFullScaleField_sameField :
    (0x10#8).extractLsb' 4 2 = (0xDF#8).extractLsb' 4 2 := by decide
theorem witness_SensitivityIsTheSameInEveryMode :
    sampleOperand .highResolution 0x0010#16 = sampleOperand .lowPower 0x0100#16 := by decide
theorem witness_OperationsAgreeWithEval : (0b11#2 : Code) = 0b11#2 ∧ (0b10#2 : Code) ≠ 0b11#2 := by
  decide
theorem witness_ShiftRoundsTowardMinusInfinity :
    (0xFFC5#16).extractLsb' (padBits .normal) (sigBits .normal) =
      BitVec.allOnes (sigBits .normal) := by decide
theorem witness_LessThanOneDigitGivesZero_least :
    0 ≤ (0x0000#16).toInt ∧ (0x0000#16).toInt < 2 ^ padBits .highResolution := by decide
theorem witness_LessThanOneDigitGivesZero_greatest :
    0 ≤ (0x00FF#16).toInt ∧ (0x00FF#16).toInt < 2 ^ padBits .lowPower := by decide
theorem witness_SampleFillsItsRange_least :
    -2 ^ (sigBits .normal - 1) ≤ (-512 : Int) ∧ (-512 : Int) ≤ 2 ^ (sigBits .normal - 1) - 1 := by
  decide
theorem witness_SampleFillsItsRange_greatest :
    -2 ^ (sigBits .normal - 1) ≤ (511 : Int) ∧ (511 : Int) ≤ 2 ^ (sigBits .normal - 1) - 1 := by
  decide
theorem witness_SampleFillsItsRange_bits : sigBits .lowPower - 1 ≤ 7 ∧ 7 ≤ 15 ∧ 15 ≤ 15 := by decide
theorem witness_PaddingBitsAreIgnored :
    (0xFFC0#16).extractLsb' (padBits .normal) (sigBits .normal) =
      (0xFFFF#16).extractLsb' (padBits .normal) (sigBits .normal) := by decide
theorem witness_OutputsAreZeroOnError :
    ∃ t, exec (.convRsvd 0b01#2 0x0010#16) atG4 = .next t ∧ t.err = true := ⟨_, rfl, rfl⟩
theorem witness_EqualInputsGiveEqualOutputs :
    ∃ t₁ t₂, step ((atG4.withPending []).withFetchWord 24 0x74000) = .next t₁ ∧
      step ((raiseUnrecognized 0b00#2 0xFFFF#16 atG4).withFetchWord 24 0x74000) = .next t₂ ∧
      t₁.inputs = t₂.inputs := ⟨_, _, rfl, rfl, rfl⟩
theorem witness_ConversionForgetsTheOneBefore :
    Instr.usesConverter (.convHrG2 0x0010#16) = true ∧
    Instr.usesConverter (.convRsvd 0b00#2 0xFFFF#16) = true := ⟨rfl, rfl⟩
theorem witness_ConverterOperationsLeaveTheDecoderAlone :
    Instr.usesConverter (.convNmG8 0x4000#16) = true ∧ Settled atG4 :=
  ⟨rfl, by decide, by decide, by decide⟩
theorem witness_DecfsLeavesTheConverterAlone : Settled atG4 := ⟨by decide, by decide, by decide⟩

end Sys2Proof.Tests
end

section
/-!
PROOF. Every evaluation completes (00 R10): each operation is a selection of the operation map or
`DECFS`, and both drive settled ports.
-/

namespace Sys2Proof.Machine

theorem code_cases (c : Code) : c = 0b00#2 ∨ c = 0b01#2 ∨ c = 0b10#2 ∨ c = 0b11#2 := by
  revert c
  decide

/-- Every operation has a row in the operation map of 30 R65: twelve conversions and the reserved
one by their codes, and `DECFS`. -/
theorem instr_selectOp_or_decfs (i : Instr) :
    (∃ rm fs raw, i = selectOp rm fs raw) ∨ (∃ b, i = .decfs b) := by
  cases i with
  | convHrG2 raw => exact .inl ⟨0b01#2, 0b00#2, raw, rfl⟩
  | convHrG4 raw => exact .inl ⟨0b01#2, 0b01#2, raw, rfl⟩
  | convHrG8 raw => exact .inl ⟨0b01#2, 0b10#2, raw, rfl⟩
  | convHrG16 raw => exact .inl ⟨0b01#2, 0b11#2, raw, rfl⟩
  | convNmG2 raw => exact .inl ⟨0b00#2, 0b00#2, raw, rfl⟩
  | convNmG4 raw => exact .inl ⟨0b00#2, 0b01#2, raw, rfl⟩
  | convNmG8 raw => exact .inl ⟨0b00#2, 0b10#2, raw, rfl⟩
  | convNmG16 raw => exact .inl ⟨0b00#2, 0b11#2, raw, rfl⟩
  | convLpG2 raw => exact .inl ⟨0b10#2, 0b00#2, raw, rfl⟩
  | convLpG4 raw => exact .inl ⟨0b10#2, 0b01#2, raw, rfl⟩
  | convLpG8 raw => exact .inl ⟨0b10#2, 0b10#2, raw, rfl⟩
  | convLpG16 raw => exact .inl ⟨0b10#2, 0b11#2, raw, rfl⟩
  | convRsvd fs raw => exact .inl ⟨0b11#2, fs, raw, rfl⟩
  | decfs b => exact .inr ⟨b, rfl⟩

/-- The evaluation of 41 R103: the converter takes new inputs and drives the outputs of `Eval`. -/
def driveEval (rm fs : Code) (raw : Word) (s : State) : State :=
  driveConverter rm fs raw (outputsOf (eval raw fs rm)).1 (outputsOf (eval raw fs rm)).2 s

/-- The operation that the codes select drives the outputs of `Eval`, the reserved code included:
its zeros are what `outputsOf` gives for the error. -/
theorem exec_selectOp (rm fs : Code) (raw : Word) (s : State) :
    exec (selectOp rm fs raw) s = .next (driveEval rm fs raw s) := by
  obtain rfl | rfl | rfl | rfl := code_cases rm
  case inr.inr.inr => rfl
  all_goals obtain rfl | rfl | rfl | rfl := code_cases fs <;> rfl

theorem exec_decfs (b : Byte) (s : State) : exec (.decfs b) s = .next (driveFsDecoder b s) := rfl

theorem driveEval_settled (rm fs : Code) (raw : Word) (s : State) :
    Settled (driveEval rm fs raw s) where
  data := rfl
  flag := rfl
  field := rfl

theorem driveFsDecoder_settled (b : Byte) (s : State) : Settled (driveFsDecoder b s) where
  data := rfl
  flag := rfl
  field := rfl

/-- Settles O15: each operation drives either `Eval` or the Full-Scale field decoder. -/
theorem everyOperationCompletes : Obligations.EveryOperationCompletes := by
  intro i s
  obtain ⟨rm, fs, raw, rfl⟩ | ⟨b, rfl⟩ := instr_selectOp_or_decfs i
  · exact ⟨_, exec_selectOp rm fs raw s, driveEval_settled rm fs raw s⟩
  · exact ⟨_, exec_decfs b s, driveFsDecoder_settled b s⟩

end Sys2Proof.Machine
end

section
/-!
PROOF. Runs over fitting vectors: a fitting vector decodes, so the step takes it and completes, and
the vectors left over fit again.
-/

namespace Sys2Proof.Machine

/-- What fits is three bytes with nothing above the 20 bits, or one byte (30 R61, R62). -/
theorem wf_cases {v : Stimulus} (h : v.wf = true) :
    (∃ b0 b1 b2, v = { port := .v20, bytes := [b0, b1, b2] } ∧ b2.extractLsb' 4 4 = 0#4) ∨
    (∃ b, v = ctrl4Stimulus b) := by
  obtain ⟨port, bytes⟩ := v
  unfold Stimulus.wf at h
  split at h
  · rename_i b0 b1 b2 hp hb
    cases hp
    cases hb
    exact .inl ⟨b0, b1, b2, rfl, by simpa using h⟩
  · cases h
  · rename_i b hp hb
    cases hp
    cases hb
    exact .inr ⟨b, rfl⟩
  · cases h

theorem decode_ok_of_wf {v : Stimulus} (h : v.wf = true) : ∃ i, decode v = .ok i := by
  obtain ⟨b0, b1, b2, rfl, hhigh⟩ | ⟨b, rfl⟩ := wf_cases h
  · rw [← v20Stimulus_joinV20 b0 b1 b2 hhigh]
    exact ⟨_, decode_v20Stimulus _⟩
  · exact ⟨_, decode_ctrl4Stimulus b⟩

theorem fetch_nil {s : State} (hp : s.pending = []) : fetch s = .ok (decodeV20 s.heldV20, s) := by
  simp [fetch, hp]

theorem fetch_cons {s : State} {v : Stimulus} {rest : List Stimulus} {i : Instr}
    (hp : s.pending = v :: rest) (hi : decode v = .ok i) :
    fetch s = .ok (i, s.withPending rest) := by
  simp [fetch, hp, hi]

theorem step_of_fetch {s s' : State} {i : Instr} (h : fetch s = .ok (i, s')) :
    step s = exec i s' := by
  simp [step, h]

/-- With fitting vectors the next operation can be taken, also where none is pending. -/
theorem fetch_of_pendingFits {s : State} (h : s.pendingFits) :
    ∃ i s', fetch s = .ok (i, s') ∧ s'.pending = s.pending.tail := by
  cases hp : s.pending with
  | nil => exact ⟨_, _, fetch_nil hp, hp⟩
  | cons v rest =>
    obtain ⟨i, hi⟩ := decode_ok_of_wf (h v (by simp [hp]))
    exact ⟨_, _, fetch_cons hp hi, rfl⟩

theorem step_of_pendingFits {s : State} (h : s.pendingFits) :
    ∃ t, step s = .next t ∧ t.pending = s.pending.tail ∧ Settled t := by
  obtain ⟨i, s', hfetch, htail⟩ := fetch_of_pendingFits h
  obtain ⟨t, hexec, hsettled⟩ := everyOperationCompletes i s'
  exact ⟨t, (step_of_fetch hfetch).trans hexec, (exec_pending hexec).trans htail, hsettled⟩

theorem pendingFits_of_pending_tail {s t : State} (h : s.pendingFits)
    (ht : t.pending = s.pending.tail) : t.pendingFits :=
  fun v hv => h v (List.mem_of_mem_tail (ht ▸ hv))

/-- The induction over a run: it takes one vector a step, and its ports end settled where they were
settled before or a step was run. -/
theorem run_of_pendingFits (k : Nat) {s : State} (h : s.pendingFits) :
    ∃ t : State, Host.Core.run Sys2Proof.core k s = .next t ∧ t.pending = s.pending.drop k ∧
      (0 < k ∨ Settled s → Settled t) := by
  induction k generalizing s with
  | zero => exact ⟨s, rfl, rfl, fun hs => hs.resolve_left (Nat.lt_irrefl 0)⟩
  | succ k ih =>
    obtain ⟨u, hstep, htail, hu⟩ := step_of_pendingFits h
    obtain ⟨t, hrun, hdrop, ht⟩ := ih (pendingFits_of_pending_tail h htail)
    exact ⟨t, (run_succ_of_step hstep k).trans hrun, by rw [hdrop, htail, List.drop_tail],
      fun _ => ht (.inr hu)⟩

/-- Settles O11, by induction on the number of steps: each step takes a fitting vector and settles
the ports, whatever they were. -/
theorem runsOfFittingVectorsNeverStop : Obligations.RunsOfFittingVectorsNeverStop := by
  intro k s h
  obtain ⟨t, hrun, hdrop, ht⟩ := run_of_pendingFits k h
  exact ⟨t, hrun, hdrop, fun hk => ht (.inl hk)⟩

end Sys2Proof.Machine
end

section
/-!
PROOF. The outputs are a function of the inputs (10 R20, R28, R29): every step leaves settled ports, and
what settled ports show, a consumer's reading among it, is fixed by the inputs.
-/

namespace Sys2Proof.Machine

/-- Only the reserved code has no resolution mode (40 R87). -/
theorem eval_ok_of_ne_reserved (raw : Word) (fs : Code) {rm : Code} (h : rm ≠ 0b11#2) :
    ∃ out, eval raw fs rm = .ok out := by
  obtain rfl | rfl | rfl | rfl := code_cases rm
  case inr.inr.inr => exact absurd rfl h
  all_goals exact ⟨_, rfl⟩

theorem eval_reserved (raw : Word) (fs : Code) :
    eval raw fs 0b11#2 = .error (.unrecognizedBitPattern .resMode 0b11#2) := rfl

/-- On settled ports a consumer reads `Eval` of the inputs: `err` is 1 exactly where `Eval` is the
error, and elsewhere the data outputs are its result. -/
theorem conversion_of_settled {s : State} (h : Settled s) :
    s.conversion = eval s.raw s.fs s.resMode := by
  have hreported := reportedError_of_flag h.flag
  by_cases hr : s.resMode = 0b11#2
  · rw [if_pos hr] at hreported
    simp only [State.conversion, hreported, hr, eval_reserved]
  · obtain ⟨out, hout⟩ := eval_ok_of_ne_reserved s.raw s.fs hr
    have hdata : (s.sampleOut, s.accelOut) = out := by simpa [hout, outputsOf] using h.data
    rw [if_neg hr] at hreported
    simp only [State.conversion, hreported, hdata, hout]

theorem exec_settles {i : Instr} {s t : State} (h : exec i s = .next t) : Settled t := by
  obtain ⟨u, hu, hsettled⟩ := everyOperationCompletes i s
  cases hu.symm.trans h
  exact hsettled

theorem step_settles {s t : State} (h : step s = .next t) : Settled t := by
  obtain ⟨i, s', -, hexec⟩ := step_next_cases h
  exact exec_settles hexec

/-- Settles O10: a step runs one operation, and every operation settles the ports, from any state. -/
theorem everyStepSettlesThePorts : Obligations.EveryStepSettlesThePorts := by
  intro s s' h
  have hsettled := step_settles h
  exact ⟨hsettled, conversion_of_settled hsettled⟩

theorem converterOutputs_eq_of_settled {s t : State} (hs : Settled s) (ht : Settled t)
    (hraw : s.raw = t.raw) (hfs : s.fs = t.fs) (hrm : s.resMode = t.resMode) :
    s.sampleOut = t.sampleOut ∧ s.accelOut = t.accelOut ∧ s.err = t.err := by
  have hdata : (s.sampleOut, s.accelOut) = (t.sampleOut, t.accelOut) := by
    rw [hs.data, ht.data, hraw, hfs, hrm]
  obtain ⟨hsample, haccel⟩ := Prod.mk.inj hdata
  exact ⟨hsample, haccel, by rw [hs.flag, ht.flag, hrm]⟩

theorem fsField_eq_of_settled {s t : State} (hs : Settled s) (ht : Settled t)
    (h : s.ctrl4In = t.ctrl4In) : s.fsField = t.fsField := by
  rw [hs.field, ht.field, h]

theorem outputs_eq_of_settled {s t : State} (hs : Settled s) (ht : Settled t)
    (h : s.inputs = t.inputs) : s.outputs = t.outputs := by
  obtain ⟨hraw, hfs, hrm, hctrl⟩ := Inputs.mk.inj h
  obtain ⟨hsample, haccel, herr⟩ := converterOutputs_eq_of_settled hs ht hraw hfs hrm
  simp only [State.outputs, hsample, haccel, herr, fsField_eq_of_settled hs ht hctrl]

/-- Settles O40: both steps settle their ports, and settled ports with equal inputs show equal
outputs. -/
theorem equalInputsGiveEqualOutputs : Obligations.EqualInputsGiveEqualOutputs := by
  intro s₁ s₂ t₁ t₂ h₁ h₂
  have hs₁ := step_settles h₁
  have hs₂ := step_settles h₂
  exact ⟨outputs_eq_of_settled hs₁ hs₂, converterOutputs_eq_of_settled hs₁ hs₂,
    fsField_eq_of_settled hs₁ hs₂⟩

theorem conversion_driveEval (rm fs : Code) (raw : Word) (s : State) :
    (driveEval rm fs raw s).conversion = eval raw fs rm :=
  conversion_of_settled (driveEval_settled rm fs raw s)

/-- The operation of a V20 vector drives `Eval` of the vector's fields (30 R60, R61). -/
theorem exec_decodeV20_v20 (rm fs : Code) (raw : Word) (s : State) :
    exec (decodeV20 (v20 (cfgWord rm fs) raw)) s = .next (driveEval rm fs raw s) := by
  rw [decodeV20_v20, exec_selectOp]

/-- Settles O45: `fs_field` after `DECFS` is bits 5:4 of the byte, and the conversion with that code
is `Eval` at it. -/
theorem fsDrivenFromFsFieldConvertsAtTheBytesRange :
    Obligations.FsDrivenFromFsFieldConvertsAtTheBytesRange := by
  intro b rm raw s
  have hfield : (driveFsDecoder b s).fsField = b.extractLsb' 4 2 := decFs_eq_extract b
  refine ⟨driveFsDecoder b s, driveEval rm (b.extractLsb' 4 2) raw (driveFsDecoder b s),
    exec_decfs b s, ?_, rfl, conversion_driveEval _ _ _ _⟩
  rw [hfield, exec_decodeV20_v20]

/-- Settles O9: the reset outputs are zero, as `Eval` of the zero inputs in the Normal mode is. -/
theorem resetPortsAreSettled : Obligations.ResetPortsAreSettled :=
  ⟨{ data := by decide, flag := by decide, field := by decide }, rfl⟩

end Sys2Proof.Machine
end

section
/-!
PROOF. What one step runs, and what a run ends at: the last vector alone, since the operation it
selects drives every output of the converter from that vector's fields (10 R28, 20 R47).
-/

namespace Sys2Proof.Machine

theorem step_nil {s : State} (hp : s.pending = []) : step s = exec (decodeV20 s.heldV20) s :=
  step_of_fetch (fetch_nil hp)

theorem step_cons {s : State} {v : Stimulus} {rest : List Stimulus} {i : Instr}
    (hp : s.pending = v :: rest) (hi : decode v = .ok i) : step s = exec i (s.withPending rest) :=
  step_of_fetch (fetch_cons hp hi)

theorem decode_tableStimulus {nbits w : Nat} {i : Instr} (h : decodeTableWord nbits w = some i) :
    decode (tableStimulus nbits w) = .ok i := by
  unfold decodeTableWord at h
  split at h
  · cases h
    assumption
  · cases h

/-- The word that `withFetchWord` puts first is the one the step takes, so it leaves the list as it
was. -/
theorem step_withFetchWord (s : State) {nbits w : Nat} {i : Instr}
    (h : decodeTableWord nbits w = some i) : step (s.withFetchWord nbits w) = exec i s :=
  step_cons (s := s.withFetchWord nbits w) rfl (decode_tableStimulus h)

/-- Settles O13, by the three cases of what is pending. -/
theorem stepRunsTheDecodedOperation : Obligations.StepRunsTheDecodedOperation :=
  ⟨fun _ _ _ _ hp hi => step_cons hp hi, fun _ hp => step_nil hp,
    fun s _ _ _ h => step_withFetchWord s h⟩

/-- On any machine, a run that answers after `j` steps goes on from its answer. -/
theorem core_run_add (M : Host.Core) (j k : Nat) {s t : M.State} (h : M.run j s = .next t) :
    M.run (j + k) s = M.run k t := by
  induction j generalizing s with
  | zero =>
    cases h
    rw [Nat.zero_add]
  | succ j ih =>
    cases hstep : M.step s with
    | next u =>
      rw [core_run_succ M hstep] at h
      rw [Nat.add_right_comm, core_run_succ M hstep, ih h]
    | fault r => simp [Host.Core.run, hstep] at h
    | refused r => simp [Host.Core.run, hstep] at h

theorem step_v20Stimulus {s : State} {rm fs : Code} {raw : Word} {rest : List Stimulus}
    (hp : s.pending = v20Stimulus (v20 (cfgWord rm fs) raw) :: rest) :
    step s = .next (driveEval rm fs raw (s.withPending rest)) := by
  rw [step_cons hp (decode_v20Stimulus _), exec_decodeV20_v20]

theorem pendingFits_append_v20Stimulus (s : State) {earlier : List Stimulus} (v : BitVec 20)
    (h : ∀ w ∈ earlier, w.wf = true) :
    (s.withPending (earlier ++ [v20Stimulus v])).pendingFits := by
  intro w hw
  rw [withPending_pending, List.mem_append, List.mem_singleton] at hw
  obtain hw | rfl := hw
  · exact h w hw
  · exact Laws.EncodeFits.v20Stimulus_wf v

/-- A run over fitting vectors and then a V20 vector ends with that vector's evaluation, in whatever
state the earlier ones left. -/
theorem run_append_v20Stimulus (s : State) {earlier : List Stimulus} (rm fs : Code) (raw : Word)
    (h : ∀ v ∈ earlier, v.wf = true) :
    ∃ u : State, Host.Core.run Sys2Proof.core (earlier.length + 1)
      (s.withPending (earlier ++ [v20Stimulus (v20 (cfgWord rm fs) raw)])) =
        .next (driveEval rm fs raw (u.withPending [])) := by
  obtain ⟨u, hrun, hdrop, -⟩ :=
    run_of_pendingFits earlier.length (pendingFits_append_v20Stimulus s (v20 (cfgWord rm fs) raw) h)
  rw [withPending_pending, List.drop_left] at hdrop
  exact ⟨u, (core_run_add Sys2Proof.core earlier.length 1 hrun).trans
    (run_succ_of_step (step_v20Stimulus hdrop) 0)⟩

/-- Settles O12: the earlier vectors are taken and leave the last one pending in some state, and its
evaluation reads no output of that state. -/
theorem runEndsAtEvalOfItsLastVector : Obligations.RunEndsAtEvalOfItsLastVector := by
  intro s earlier rm fs raw h
  obtain ⟨u, hrun⟩ := run_append_v20Stimulus s rm fs raw h
  have hsettled := driveEval_settled rm fs raw (u.withPending [])
  exact ⟨_, hrun, conversion_driveEval rm fs raw _, hsettled.data, hsettled.flag, rfl⟩

end Sys2Proof.Machine
end

section
/-!
PROOF. A later evaluation writes over an earlier one of its format (20 R45, R47): it drives its ports
from its own operands, and the held ports it reads besides are ones the earlier one left as they were.
-/

namespace Sys2Proof.Machine

/-- The operations with a V20 vector are the selections of the operation map (30 R61, R65). -/
theorem selectOp_of_usesConverter {i : Instr} (h : i.usesConverter = true) :
    ∃ rm fs raw, i = selectOp rm fs raw := by
  obtain hselect | ⟨b, rfl⟩ := instr_selectOp_or_decfs i
  · exact hselect
  · cases h

/-- A conversion reads `ctrl4_in` alone besides its operands, and no conversion changes it. -/
theorem driveEval_driveEval (rm fs rm' fs' : Code) (raw raw' : Word) (s : State) :
    driveEval rm fs raw (driveEval rm' fs' raw' s) = driveEval rm fs raw s := rfl

/-- `DECFS` reads the converter's inputs besides its byte, and no `DECFS` changes them. -/
theorem driveFsDecoder_driveFsDecoder (b b' : Byte) (s : State) :
    driveFsDecoder b (driveFsDecoder b' s) = driveFsDecoder b s := rfl

/-- Settles O41: both evaluations are selections of the operation map, the error among them, and the
second writes over the first. -/
theorem conversionForgetsTheOneBefore : Obligations.ConversionForgetsTheOneBefore := by
  intro i j s hi hj
  obtain ⟨rm, fs, raw, rfl⟩ := selectOp_of_usesConverter hi
  obtain ⟨rm', fs', raw', rfl⟩ := selectOp_of_usesConverter hj
  refine ⟨driveEval rm' fs' raw' s, exec_selectOp rm' fs' raw' s, ?_⟩
  rw [exec_selectOp, exec_selectOp, driveEval_driveEval]

/-- Settles O42: an operation is a conversion or `DECFS`, and each writes over itself. -/
theorem repeatedEvaluationChangesNothing : Obligations.RepeatedEvaluationChangesNothing := by
  intro i s
  obtain ⟨rm, fs, raw, rfl⟩ | ⟨b, rfl⟩ := instr_selectOp_or_decfs i
  · refine ⟨driveEval rm fs raw s, exec_selectOp rm fs raw s, ?_⟩
    rw [exec_selectOp, driveEval_driveEval]
  · refine ⟨driveFsDecoder b s, exec_decfs b s, ?_⟩
    rw [exec_decfs, driveFsDecoder_driveFsDecoder]

end Sys2Proof.Machine
end

section
/-!
PROOF. The named conversions `CONV.<MODE>.<FS>` (30 R68) by the codes of their mode and scale, and that
they read of `raw` its significant field alone (20 R43).
-/

namespace Sys2Proof.Machine

/-- The code of a resolution mode (40 R87). -/
def resCode (m : ResMode) : Code :=
  match m with
  | .highResolution => 0b01#2
  | .normal => 0b00#2
  | .lowPower => 0b10#2

@[simp] theorem decRes_resCode (m : ResMode) : decRes (resCode m) = .ok m := by
  cases m <;> rfl

@[simp] theorem errFlag_resCode (m : ResMode) : errFlag (resCode m) = false := by
  cases m <;> rfl

@[simp] theorem fsVariant_fsCode (v : FullScale) : fsVariant (fsCode v) = v := by
  cases v <;> rfl

/-- A named conversion is what its codes select. -/
theorem convInstr_eq_selectOp (m : ResMode) (v : FullScale) (raw : Word) :
    convInstr m v raw = selectOp (resCode m) (fsCode v) raw := by
  cases m <;> cases v <;> rfl

/-- `Eval` at a mode's and a scale's own codes is the sample and its product with the sensitivity. -/
@[simp] theorem eval_codes (m : ResMode) (v : FullScale) (raw : Word) :
    eval raw (fsCode v) (resCode m) =
      .ok (sampleOperand m raw, scale (sampleOperand m raw) (sensK v)) := by
  simp only [eval, decRes_resCode, fsVariant_fsCode]

/-- What a named conversion drives onto the ports (41 R101, R102). -/
def driveSample (m : ResMode) (v : FullScale) (raw : Word) (s : State) : State :=
  driveConverter (resCode m) (fsCode v) raw
    (sampleOperand m raw) (scale (sampleOperand m raw) (sensK v)) s

theorem exec_convInstr (m : ResMode) (v : FullScale) (raw : Word) (s : State) :
    exec (convInstr m v raw) s = .next (driveSample m v raw s) := by
  rw [convInstr_eq_selectOp, exec_selectOp, driveEval, eval_codes]
  rfl

/-- The sample operand is the sign extension of the significant field, so it does not see the padding
below it. -/
theorem sampleOperand_eq_of_field_eq {m : ResMode} {raw raw' : Word}
    (h : raw.extractLsb' (padBits m) (sigBits m) = raw'.extractLsb' (padBits m) (sigBits m)) :
    sampleOperand m raw = sampleOperand m raw' :=
  congrArg sext16 h

/-- The outputs of a named conversion see `raw` through the sample operand alone. -/
theorem driveSample_outputs_eq {m : ResMode} {raw raw' : Word} (v : FullScale) (s : State)
    (h : sampleOperand m raw = sampleOperand m raw') :
    (driveSample m v raw s).outputs = (driveSample m v raw' s).outputs := by
  simp [driveSample, State.outputs, h]

/-- Settles O36: equal significant fields give equal sample operands, and the outputs depend on those
alone; `0x001F` and `0x0010` have the operand 1 in HighResolution. -/
theorem paddingBitsAreIgnored : Obligations.PaddingBitsAreIgnored := by
  constructor
  · intro m v raw raw' s h
    exact ⟨_, _, exec_convInstr m v raw s, exec_convInstr m v raw' s,
      driveSample_outputs_eq v s (sampleOperand_eq_of_field_eq h), errFlag_resCode m⟩
  · intro v s
    have hdigit : sampleOperand .highResolution 0x001F#16 = 0x0001#16 := by decide
    have hexact : sampleOperand .highResolution 0x0010#16 = 0x0001#16 := by decide
    exact ⟨_, _, exec_convInstr .highResolution v 0x001F#16 s,
      exec_convInstr .highResolution v 0x0010#16 s, hdigit, hexact⟩

end Sys2Proof.Machine
end

section
/-!
PROOF. Encoder and decoder agree (30 R60 to R62, R65): the encoder writes the codes that select an
operation, so on V20 vectors both directions are the one fact that a vector is its three fields.
-/

namespace Sys2Proof.Machine

/-- The operation that the codes select is encoded as the vector of those codes. -/
theorem encode_selectOp (rm fs : Code) (raw : Word) :
    encode (selectOp rm fs raw) = v20Stimulus (v20 (cfgWord rm fs) raw) := by
  obtain rfl | rfl | rfl | rfl := code_cases rm
  case inr.inr.inr => rfl
  all_goals obtain rfl | rfl | rfl | rfl := code_cases fs <;> rfl

theorem encode_decodeV20 (v : BitVec 20) : encode (decodeV20 v) = v20Stimulus v := by
  rw [decodeV20, encode_selectOp, v20_of_fields]

theorem encode_wf (i : Instr) : (encode i).wf = true := by
  obtain ⟨rm, fs, raw, rfl⟩ | ⟨b, rfl⟩ := instr_selectOp_or_decfs i
  · rw [encode_selectOp]
    exact Laws.EncodeFits.v20Stimulus_wf _
  · exact Laws.EncodeFits.decfs b

/-- Settles O1: an operation is a selection of the operation map, whose codes its vector gives back,
or `DECFS`. -/
theorem decodingTheEncodedOperationGivesItBack :
    Obligations.DecodingTheEncodedOperationGivesItBack := by
  intro i
  obtain ⟨rm, fs, raw, rfl⟩ | ⟨b, rfl⟩ := instr_selectOp_or_decfs i
  · rw [encode_selectOp, decode_v20Stimulus, decodeV20_v20]
  · exact decode_ctrl4Stimulus b

/-- Settles O2: an accepted vector is the bytes of the 20 bits they join to, or one byte. -/
theorem encodingTheDecodedVectorGivesItBack : Obligations.EncodingTheDecodedVectorGivesItBack := by
  intro v i h
  obtain ⟨b0, b1, b2, rfl, hhigh, rfl⟩ | ⟨b, rfl, rfl⟩ := decode_ok_cases h
  · rw [encode_decodeV20, v20Stimulus_joinV20 b0 b1 b2 hhigh]
  · rfl

/-- Settles O3: an accepted vector is the encoding of its operation, and encodings fit. -/
theorem decoderAcceptsExactlyFittingVectors : Obligations.DecoderAcceptsExactlyFittingVectors := by
  intro v
  constructor
  · rintro ⟨i, hi⟩
    rw [← encodingTheDecodedVectorGivesItBack v i hi]
    exact encode_wf i
  · exact decode_ok_of_wf

end Sys2Proof.Machine
end

section
/-!
PROOF. The operation map (30 R65) and its reserved values (R66): its twelve valid rows are those of the
modes and scales, and the fields of a V20 vector reach their ports whatever it selects.
-/

namespace Sys2Proof.Machine

/-- The row of a mode and a scale in the operation map: codes, operation, `N`, `S` and `K`. -/
def operationRow (m : ResMode) (v : FullScale) :
    Code × Code × (Word → Instr) × Nat × Nat × Nat :=
  (resCode m, fsCode v, convInstr m v, sigBits m, padBits m, sensK v)

/-- The twelve valid rows of 30 R65 in its order, by rising `cfg`. -/
def operationRows : List (Code × Code × (Word → Instr) × Nat × Nat × Nat) :=
  [ResMode.normal, .highResolution, .lowPower].flatMap fun m =>
    [FullScale.g2, .g4, .g8, .g16].map (operationRow m)

theorem exists_of_mem_operationRows {row : Code × Code × (Word → Instr) × Nat × Nat × Nat}
    (h : row ∈ operationRows) : ∃ m v, row = operationRow m v := by
  obtain ⟨m, -, hm⟩ := List.mem_flatMap.mp h
  obtain ⟨v, -, hv⟩ := List.mem_map.mp hm
  exact ⟨m, v, hv.symm⟩

/-- The vector of a mode's and a scale's codes selects the conversion they name. -/
theorem decodeV20_codes (m : ResMode) (v : FullScale) (raw : Word) :
    decodeV20 (v20 (cfgWord (resCode m) (fsCode v)) raw) = convInstr m v raw := by
  rw [decodeV20_v20, convInstr_eq_selectOp]

/-- Settles O4: the table of the statement is that of the modes and scales, and every operation
settles `fs_field`. -/
theorem operationMapSelectsEveryCfg : Obligations.OperationMapSelectsEveryCfg := by
  refine ⟨?rows, fun fs raw => decodeV20_v20 0b11#2 fs raw, fun _ => rfl, ?fsField⟩
  case rows =>
    intro row hrow raw
    obtain ⟨m, v, rfl⟩ := exists_of_mem_operationRows hrow
    exact ⟨decodeV20_codes m v raw, m, decRes_resCode m, rfl, rfl,
      congrArg sensK (fsVariant_fsCode v)⟩
  case fsField =>
    intro i s
    obtain ⟨t, hexec, hsettled⟩ := everyOperationCompletes i s
    exact ⟨t, hexec, hsettled.field.trans (decFs_eq_extract t.ctrl4In)⟩

/-- Only `res_mode` = 11 selects the reserved operation. -/
theorem selectOp_eq_convRsvd_iff (rm fs : Code) (raw : Word) :
    (∃ fs' raw', selectOp rm fs raw = .convRsvd fs' raw') ↔ rm = 0b11#2 := by
  constructor
  · rintro ⟨fs', raw', h⟩
    obtain rfl | rfl | rfl | rfl := code_cases rm
    case inr.inr.inr => rfl
    all_goals obtain rfl | rfl | rfl | rfl := code_cases fs <;> cases h
  · rintro rfl
    exact ⟨fs, raw, rfl⟩

/-- The operation of a V20 vector drives `Eval` of the vector's fields. -/
theorem exec_decodeV20 (v : BitVec 20) (s : State) :
    exec (decodeV20 v) s =
      .next (driveEval (v.extractLsb' 18 2) (v.extractLsb' 16 2) (v.extractLsb' 0 16) s) :=
  exec_selectOp _ _ _ s

/-- Every Full-Scale code is that of its variant (40 R81). -/
theorem encFs_fsVariant (c : Code) : encFs (fsVariant c) = c := by
  revert c
  decide

/-- Settles O5: a vector selects the reserved operation by its `res_mode` field alone, and on the
settled ports that field alone sets `err`. -/
theorem onlyResModeElevenIsReserved : Obligations.OnlyResModeElevenIsReserved := by
  intro v s
  exact ⟨selectOp_eq_convRsvd_iff _ _ _,
    ⟨_, exec_decodeV20 v s, reportedError_of_flag (driveEval_settled _ _ _ s).flag⟩,
    fun c => ⟨fsVariant c, encFs_fsVariant c⟩, fun b => ⟨_, exec_decfs b s⟩⟩

/-- Settles O6: the evaluation of a vector has the vector's fields as its inputs. -/
theorem vectorFieldsReachTheirPorts : Obligations.VectorFieldsReachTheirPorts :=
  ⟨fun v s => ⟨_, exec_decodeV20 v s, rfl, rfl, rfl⟩, by decide⟩

/-- Settles O43: a V20 operation drives the converter alone, and `fs_field` again from the held
`ctrl4_in`. -/
theorem converterOperationsLeaveTheDecoderAlone :
    Obligations.ConverterOperationsLeaveTheDecoderAlone := by
  intro i s hi
  obtain ⟨rm, fs, raw, rfl⟩ := selectOp_of_usesConverter hi
  exact ⟨_, exec_selectOp rm fs raw s, rfl, rfl, fun hs => hs.field.symm⟩

end Sys2Proof.Machine
end

section
/-!
PROOF. The sample operand (30 R63): the significant field is the top of the word, so extending its sign
is the arithmetic shift, which keeps the sign of the word.
-/

namespace Sys2Proof.Machine

theorem padBits_lt (m : ResMode) : padBits m < 16 := by
  cases m <;> decide

theorem sampleOperand_msb (m : ResMode) (raw : Word) :
    (sampleOperand m raw).msb = raw.getLsbD 15 := by
  rw [sampleOperand_eq_sshiftRight, BitVec.msb_sshiftRight, BitVec.msb_eq_getLsbD_last]

/-- Settles O27: a named conversion drives the sample operand, which is both the shift and the
extended field. -/
theorem sampleIsTheSignExtendedField : Obligations.SampleIsTheSignExtendedField := by
  refine ⟨⟨rfl, rfl, rfl⟩, fun m v raw s => ⟨_, exec_convInstr m v raw s, ?_⟩⟩
  have hshift := sampleOperand_eq_sshiftRight m raw
  have hfield := sext_top_field_eq_sshiftRight raw (padBits m) (padBits_lt m)
  exact ⟨hshift.trans hfield.symm, hshift, sampleOperand_msb m raw⟩

end Sys2Proof.Machine
end

section
/-!
PROOF. What comes from outside the block: table words, assembler lines (30 R68; log entry 7) and vectors
that fit no format (log entry 4).
-/

namespace Sys2Proof.Machine

/-- Settles O7, by evaluating the decoder on each of the five words. -/
theorem writtenOutVectorsDecode : Obligations.WrittenOutVectorsDecode :=
  ⟨by decide, by decide, by decide, by decide, by decide⟩

theorem assemble_of_misfit {l : AsmLine} (h : l.wf = false) : assemble l = none := by
  simp [assemble, h]

theorem assemble_conv (m : ResMode) (v : FullScale) (raw : Word) :
    assemble (.conv m v raw.toNat) = some (convInstr m v raw) := by
  have hfits : (AsmLine.conv m v raw.toNat).wf = true := decide_eq_true raw.isLt
  simp [assemble, hfits]

theorem assemble_toPhysical (raw : Word) (v : FullScale) :
    assemble (.toPhysical raw.toNat v) = some (convInstr .highResolution v raw) := by
  have hfits : (AsmLine.toPhysical raw.toNat v).wf = true := decide_eq_true raw.isLt
  simp [assemble, hfits, toPhysical]

theorem assemble_rsvd (fs : Code) (raw : Word) :
    assemble (.rsvd fs.toNat raw.toNat) = some (.convRsvd fs raw) := by
  have hfits : (AsmLine.rsvd fs.toNat raw.toNat).wf = true := by
    simp only [AsmLine.wf, decide_eq_true fs.isLt, decide_eq_true raw.isLt, Bool.and_self]
  simp [assemble, hfits]

theorem assemble_decfs (b : Byte) : assemble (.decfs b.toNat) = some (.decfs b) := by
  have hfits : (AsmLine.decfs b.toNat).wf = true := decide_eq_true b.isLt
  simp [assemble, hfits]

/-- Settles O8, by the kinds of line. -/
theorem assemblerLinesNameTheirOperations : Obligations.AssemblerLinesNameTheirOperations :=
  ⟨fun m v raw => ⟨assemble_conv m v raw, assemble_toPhysical raw v⟩, assemble_rsvd,
    assemble_decfs, fun _ => assemble_of_misfit⟩

theorem fetch_cons_rejected {s : State} {v : Stimulus} {rest : List Stimulus} {why : Reject}
    (hp : s.pending = v :: rest) (hwhy : decode v = .error why) : fetch s = .error why := by
  simp [fetch, hp, hwhy]

theorem step_of_fetch_rejected {s : State} {why : Reject} (h : fetch s = .error why) :
    step s = .fault (.notAnEvaluation why) := by
  simp [step, h]

/-- Settles O14: the vector's rejection is that of the fetch, and the step stops with it. -/
theorem unfittingVectorStopsTheStep : Obligations.UnfittingVectorStopsTheStep :=
  fun _ _ _ _ hp hwhy => step_of_fetch_rejected (fetch_cons_rejected hp hwhy)

end Sys2Proof.Machine
end

section
/-!
PROOF. The configuration fields: the Full-Scale field of CTRL_REG4 (40 R80 to R83) with the frame of
`DECFS`, the sensitivities (R84 to R86), and the resolution mode (R87, R88).
-/

namespace Sys2Proof.Machine

theorem driveFsDecoder_fsField_eq_extract (b : Byte) (s : State) :
    (driveFsDecoder b s).fsField = b.extractLsb' 4 2 :=
  decFs_eq_extract b

/-- Settles O20: `DECFS` drives `fs_field` from bits 5:4 of its byte alone, and `err` from the held
`res_mode`. -/
theorem decfsGivesTheFullScaleField : Obligations.DecfsGivesTheFullScaleField := by
  refine ⟨?field, ?err, ?ignored, ?g4⟩
  case field =>
    intro b s
    exact ⟨_, exec_decfs b s, rfl, rfl, driveFsDecoder_fsField_eq_extract b s⟩
  case err =>
    intro b b' s
    exact ⟨_, _, exec_decfs b s, exec_decfs b' s, rfl⟩
  case ignored =>
    intro b b' s h
    refine ⟨_, _, exec_decfs b s, exec_decfs b' s, ?_⟩
    rw [driveFsDecoder_fsField_eq_extract, driveFsDecoder_fsField_eq_extract, h]
  case g4 =>
    intro s
    have hlow : decFs 0x10#8 = 0b01#2 := by decide
    have hhigh : decFs 0x90#8 = 0b01#2 := by decide
    exact ⟨_, _, exec_decfs 0x10#8 s, exec_decfs 0x90#8 s, hlow, hhigh, rfl⟩

/-- Settles O21: the codes by their table, and code and variant as inverses of each other. -/
theorem fullScaleVariantsEncode : Obligations.FullScaleVariantsEncode :=
  ⟨⟨rfl, rfl, rfl, rfl⟩, ⟨rfl, rfl, rfl, rfl⟩, fun _ => rfl, encFs_fsVariant, fsVariant_fsCode⟩

/-- The decoded field, put back in position, is the byte with its other bits cleared. -/
theorem encFsPos_fsVariant_decFs (b : Byte) : encFsPos (fsVariant (decFs b)) = b &&& fsMask := by
  revert b
  decide

/-- The field of a variant's in-position byte is the variant's code. -/
theorem decFs_encFsPos (v : FullScale) : decFs (encFsPos v) = encFs v := by
  cases v <;> rfl

/-- Settles O22: `DECFS` completes with the decoded field, and the decoder and the two encoders are
inverses up to the mask. -/
theorem fullScaleFieldRoundTrips : Obligations.FullScaleFieldRoundTrips := by
  constructor
  · intro b s
    exact ⟨_, exec_decfs b s, encFs_fsVariant (decFs b), encFsPos_fsVariant_decFs b⟩
  · intro v s
    refine ⟨_, exec_decfs (encFsPos v) s, ?_⟩
    rw [driveFsDecoder_fsField, decFs_encFsPos]
    exact fsVariant_fsCode v

/-- On settled ports the outputs that `DECFS` drives again for the held converter inputs are the ones
they show. -/
theorem driveFsDecoder_of_settled (b : Byte) {s : State} (h : Settled s) :
    driveFsDecoder b s = { s with ctrl4In := b, fsField := b.extractLsb' 4 2 } := by
  rw [driveFsDecoder, ← h.data, ← h.flag, decFs_eq_extract]

/-- Settles O44: `DECFS` updates the decoder's ports, and drives the converter's from its held
inputs. -/
theorem decfsLeavesTheConverterAlone : Obligations.DecfsLeavesTheConverterAlone :=
  fun b s => ⟨_, exec_decfs b s, rfl, rfl, rfl, rfl, driveFsDecoder_of_settled b⟩

/-- `K` is the sensitivity in counts of 0.001 g, with nothing lost (40 R84). -/
theorem sensK_eq_sensitivity_div (v : FullScale) :
    (sensK v : Rat) = sensitivity v / (1 / 1000) := by
  cases v <;> norm_num [sensK, sensitivity]

/-- Settles O23: the two tables and that one is the other in counts of 0.001 g. -/
theorem sensitivityTable : Obligations.SensitivityTable :=
  ⟨⟨rfl, rfl, rfl, rfl⟩, ⟨rfl, rfl, rfl, rfl⟩, sensK_eq_sensitivity_div, rfl, rfl, rfl, rfl⟩

/-- The acceleration is the sample scaled by the sensitivity; the mode enters through the sample
alone. -/
theorem driveSample_accelOut (m : ResMode) (v : FullScale) (raw : Word) (s : State) :
    (driveSample m v raw s).accelOut = scale (driveSample m v raw s).sampleOut (sensK v) := rfl

/-- Settles O24: the acceleration is a function of the sample and the Full-Scale variant. -/
theorem sensitivityIsTheSameInEveryMode : Obligations.SensitivityIsTheSameInEveryMode := by
  intro m m' v raw raw' s s'
  refine ⟨_, _, exec_convInstr m v raw s, exec_convInstr m' v raw' s', fun hsample => ?_⟩
  rw [driveSample_accelOut, driveSample_accelOut, hsample]

/-- The evaluation at a mode's code shifts the sample by the padding of that mode. -/
theorem driveEval_sampleOut (m : ResMode) (fs : Code) (raw : Word) (s : State) :
    (driveEval (resCode m) fs raw s).sampleOut = raw.sshiftRight (padBits m) := by
  obtain ⟨v, rfl⟩ : ∃ v, fsCode v = fs := ⟨fsVariant fs, encFs_fsVariant fs⟩
  rw [driveEval, driveConverter_sampleOut, eval_codes]
  exact sampleOperand_eq_sshiftRight m raw

theorem driveEval_reportedError (rm fs : Code) (raw : Word) (s : State) :
    (driveEval rm fs raw s).reportedError =
      if rm = 0b11#2 then some (.unrecognizedBitPattern .resMode 0b11#2) else none :=
  reportedError_of_flag (driveEval_settled rm fs raw s).flag

/-- Settles O25: a code's vector drives `Eval` at that code, which shifts by the padding of the code's
mode, and reports the error at the one code that has no mode. -/
theorem resolutionModeSelectsTheShift : Obligations.ResolutionModeSelectsTheShift := by
  refine ⟨⟨rfl, rfl, rfl, rfl⟩, ⟨rfl, rfl, rfl, rfl, rfl, rfl⟩, fun fs raw s => ?_⟩
  exact ⟨_, _, _, _, exec_decodeV20_v20 0b00#2 fs raw s, exec_decodeV20_v20 0b01#2 fs raw s,
    exec_decodeV20_v20 0b10#2 fs raw s, exec_decodeV20_v20 0b11#2 fs raw s,
    driveEval_sampleOut .normal fs raw s, driveEval_sampleOut .highResolution fs raw s,
    driveEval_sampleOut .lowPower fs raw s, driveEval_reportedError 0b00#2 fs raw s,
    driveEval_reportedError 0b01#2 fs raw s, driveEval_reportedError 0b10#2 fs raw s,
    driveEval_reportedError 0b11#2 fs raw s⟩

end Sys2Proof.Machine
end

section
/-!
PROOF. The value of the sample (41 R101, R105, R106, R108): the sample operand is the raw word
divided by `2^S` and rounded down, and so it takes exactly the values of `N` bits.
-/

namespace Sys2Proof.Machine

theorem sampleOperand_toInt (m : ResMode) (raw : Word) :
    (sampleOperand m raw).toInt = raw.toInt / 2 ^ padBits m := by
  rw [sampleOperand_eq_sshiftRight, sshiftRight_toInt]

theorem two_pow_padBits_pos (m : ResMode) : (0 : Int) < 2 ^ padBits m := by
  positivity

/-- Half the range of `N` bits, in digits of `2^S`, is half the range of the word. -/
theorem two_pow_sigBits_mul_two_pow_padBits (m : ResMode) :
    (2 : Int) ^ (sigBits m - 1) * 2 ^ padBits m = 32768 := by
  cases m <;> rfl

theorem sampleOperand_toInt_range (m : ResMode) (raw : Word) :
    -2 ^ (sigBits m - 1) ≤ (sampleOperand m raw).toInt ∧
      (sampleOperand m raw).toInt ≤ 2 ^ (sigBits m - 1) - 1 := by
  obtain ⟨hlo, hhi⟩ := word_toInt_range raw
  have hpos := two_pow_padBits_pos m
  have hspan := two_pow_sigBits_mul_two_pow_padBits m
  rw [sampleOperand_toInt, Int.le_sub_one_iff, Int.le_ediv_iff_mul_le hpos,
    Int.ediv_lt_iff_lt_mul hpos, neg_mul, hspan]
  omega

/-- The word of a value of `N` bits above zero padding has that value as its sample. -/
theorem sampleOperand_toInt_ofInt_mul {m : ResMode} {x : Int} (hlo : -2 ^ (sigBits m - 1) ≤ x)
    (hhi : x ≤ 2 ^ (sigBits m - 1) - 1) :
    (sampleOperand m (BitVec.ofInt 16 (x * 2 ^ padBits m))).toInt = x := by
  have hpos := two_pow_padBits_pos m
  have hspan := two_pow_sigBits_mul_two_pow_padBits m
  have hfit : (BitVec.ofInt 16 (x * 2 ^ padBits m)).toInt = x * 2 ^ padBits m := by
    have hmin := mul_le_mul_of_nonneg_right hlo hpos.le
    have hmax := mul_lt_mul_of_pos_right (Int.le_sub_one_iff.mp hhi) hpos
    rw [neg_mul, hspan] at hmin
    rw [hspan] at hmax
    rw [BitVec.toInt_ofInt, Int.bmod_eq_of_le] <;> omega
  rw [sampleOperand_toInt, hfit, Int.mul_ediv_cancel x hpos.ne']

theorem sigBits_add_padBits (m : ResMode) : sigBits m + padBits m = 16 := by
  cases m <;> rfl

/-- The bits from the field's top one up are the sign: that one is `raw[15]`, and the shift
copies it into the others. -/
theorem sampleOperand_getLsbD_of_ge (m : ResMode) (raw : Word) {j : Nat} (hlo : sigBits m - 1 ≤ j)
    (hhi : j ≤ 15) : (sampleOperand m raw).getLsbD j = (sampleOperand m raw).msb := by
  have hsum := sigBits_add_padBits m
  have hpad := padBits_lt m
  rw [sampleOperand_msb, sampleOperand_eq_sshiftRight, BitVec.getLsbD_sshiftRight,
    BitVec.msb_eq_getLsbD_last]
  obtain htop | habove : padBits m + j = 15 ∨ 16 ≤ padBits m + j := by omega
  · simp [htop, show ¬ 16 ≤ j by omega]
  · simp [show ¬ padBits m + j < 16 by omega, show ¬ 16 ≤ j by omega]

theorem sampleOperand_lowest (m : ResMode) :
    (sampleOperand m 0x8000#16).toInt = -2 ^ (sigBits m - 1) := by
  cases m <;> decide

theorem sampleOperand_highest (m : ResMode) :
    (sampleOperand m 0x7FFF#16).toInt = 2 ^ (sigBits m - 1) - 1 := by
  cases m <;> decide

/-- Settles O34: the sample is the quotient by `2^S`, which lies in the range and at
`x * 2^S` is `x`. -/
theorem sampleFillsItsRange : Obligations.SampleFillsItsRange := by
  refine ⟨⟨rfl, rfl, rfl⟩, ?range, ?onto⟩
  case range =>
    intro m v raw s
    obtain ⟨hmin, hmax⟩ := sampleOperand_toInt_range m raw
    refine ⟨_, exec_convInstr m v raw s, hmin, hmax, ?_, ?_,
      fun _ => sampleOperand_getLsbD_of_ge m raw⟩
    · rintro rfl
      exact sampleOperand_lowest m
    · rintro rfl
      exact sampleOperand_highest m
  case onto =>
    intro m v s x hlo hhi
    exact ⟨_, _, exec_convInstr m v _ s, sampleOperand_toInt_ofInt_mul hlo hhi⟩

/-- The quotient on `Int` is the floor of the exact one. -/
theorem sampleOperand_toInt_eq_floor (m : ResMode) (raw : Word) :
    (sampleOperand m raw).toInt = ⌊(raw.toInt : Rat) / 2 ^ padBits m⌋ := by
  have hfloor := Rat.floor_intCast_div_natCast raw.toInt (2 ^ padBits m)
  push_cast at hfloor
  rw [sampleOperand_toInt, hfloor]

/-- Settles O28: the sample operand as the field, as the shift and as the floor, and its value at
`0xFFF0`, where the logical shift brings in zeros. -/
theorem sampleIsTheFloorOfTheQuotient : Obligations.SampleIsTheFloorOfTheQuotient := by
  constructor
  · intro m v raw s
    exact ⟨_, exec_convInstr m v raw s, rfl, sampleOperand_eq_sshiftRight m raw,
      sampleOperand_toInt_eq_floor m raw⟩
  · intro v s
    have hfloor : (sampleOperand .highResolution 0xFFF0#16).toInt = -1 := by decide
    have hlogical : (0xFFF0#16 >>> 4).toInt = 4095 := by decide
    exact ⟨_, exec_convInstr .highResolution v 0xFFF0#16 s, hfloor, hlogical⟩

theorem two_pow_mul_sampleOperand_le (m : ResMode) (raw : Word) :
    2 ^ padBits m * (sampleOperand m raw).toInt ≤ raw.toInt := by
  rw [sampleOperand_toInt]
  exact Int.mul_ediv_self_le (two_pow_padBits_pos m).ne'

theorem lt_two_pow_mul_sampleOperand_add_one (m : ResMode) (raw : Word) :
    raw.toInt < 2 ^ padBits m * ((sampleOperand m raw).toInt + 1) := by
  rw [sampleOperand_toInt, mul_add, mul_one]
  exact Int.lt_mul_ediv_self_add (two_pow_padBits_pos m)

/-- The sign extension of a field of ones is the word of ones. -/
theorem sampleOperand_of_field_allOnes {m : ResMode} {raw : Word}
    (h : raw.extractLsb' (padBits m) (sigBits m) = BitVec.allOnes (sigBits m)) :
    sampleOperand m raw = 0xFFFF#16 := by
  rw [sampleOperand, h]
  cases m <;> decide

theorem sampleOperand_minusOne (m : ResMode) : sampleOperand m 0xFFFF#16 = 0xFFFF#16 := by
  cases m <;> decide

/-- Settles O31: the quotient rounded down, and its values on both sides of zero, which are not
opposite. -/
theorem shiftRoundsTowardMinusInfinity : Obligations.ShiftRoundsTowardMinusInfinity := by
  constructor
  · intro m v raw s
    exact ⟨_, exec_convInstr m v raw s, two_pow_mul_sampleOperand_le m raw,
      lt_two_pow_mul_sampleOperand_add_one m raw,
      fun h => congrArg BitVec.toInt (sampleOperand_of_field_allOnes h)⟩
  · intro v s
    have hbelow : sampleOperand .highResolution 0xFFF8#16 = 0xFFFF#16 := by decide
    have habove : sampleOperand .highResolution 0x0008#16 = 0x0000#16 := by decide
    exact ⟨_, _, _, exec_convInstr .highResolution v 0xFFF8#16 s,
      exec_convInstr .highResolution v 0xFFFF#16 s, exec_convInstr .highResolution v 0x0008#16 s,
      hbelow, sampleOperand_minusOne .highResolution, habove⟩

/-- Below one digit the quotient is zero. -/
theorem sampleOperand_of_lt_digit {m : ResMode} {raw : Word} (h0 : 0 ≤ raw.toInt)
    (hlt : raw.toInt < 2 ^ padBits m) : sampleOperand m raw = 0x0000#16 := by
  apply BitVec.eq_of_toInt_eq
  rw [sampleOperand_toInt, Int.ediv_eq_zero_of_lt h0 hlt]
  rfl

theorem scale_zero (k : Nat) : scale 0x0000#16 k = 0x0000#16 := by
  simp [scale, toBits16]

/-- A named conversion drives its sample operand and that sample's product, with no error. -/
theorem drives_convInstr {m : ResMode} {v : FullScale} {raw d a : Word} (s : State)
    (hd : sampleOperand m raw = d) (ha : scale d (sensK v) = a) :
    Drives (convInstr m v raw) s d a false := by
  subst hd ha
  exact ⟨_, exec_convInstr m v raw s, rfl, rfl, errFlag_resCode m⟩

/-- Settles O32: below one digit the sample is zero, and so is its product. -/
theorem lessThanOneDigitGivesZero : Obligations.LessThanOneDigitGivesZero :=
  fun _ _ _ s h0 hlt => drives_convInstr s (sampleOperand_of_lt_digit h0 hlt) (scale_zero _)

end Sys2Proof.Machine
end

section
/-!
PROOF. The product (41 R102, R104, R107): the sample has at most 12 bits and the sensitivity is at
most 12, so the product fits the word and every value read from it is exact.
-/

namespace Sys2Proof.Machine

/-- The range of the widest mode holds the samples of every mode. -/
theorem sampleOperand_toInt_widest (m : ResMode) (raw : Word) :
    -2048 ≤ (sampleOperand m raw).toInt ∧ (sampleOperand m raw).toInt ≤ 2047 := by
  have hrange := sampleOperand_toInt_range m raw
  cases m <;> simp only [sigBits] at hrange <;> omega

/-- The widest sample times the largest sensitivity bounds every product. -/
theorem product_range (m : ResMode) (v : FullScale) (raw : Word) :
    -24576 ≤ (sampleOperand m raw).toInt * sensK v ∧
      (sampleOperand m raw).toInt * sensK v ≤ 24564 := by
  have hrange := sampleOperand_toInt_widest m raw
  cases v <;> simp only [sensK] <;> omega

/-- The product does not wrap. -/
theorem scale_sampleOperand_toInt (m : ResMode) (v : FullScale) (raw : Word) :
    (scale (sampleOperand m raw) (sensK v)).toInt = (sampleOperand m raw).toInt * sensK v := by
  obtain ⟨hmin, hmax⟩ := product_range m v raw
  exact scale_toInt _ _ (by omega) (by omega)

/-- Settles O30: the bound of the product, and the two raw words at which `CONV.HR.G16`
reaches its ends. -/
theorem productNeverOverflows : Obligations.ProductNeverOverflows := by
  constructor
  · intro m v raw s
    obtain ⟨hmin, hmax⟩ := product_range m v raw
    exact ⟨_, exec_convInstr m v raw s, hmin, hmax, scale_sampleOperand_toInt m v raw⟩
  · intro s
    have hlow := sampleOperand_lowest .highResolution
    have hhigh := sampleOperand_highest .highResolution
    have hlowAccel := scale_sampleOperand_toInt .highResolution .g16 0x8000#16
    have hhighAccel := scale_sampleOperand_toInt .highResolution .g16 0x7FFF#16
    rw [hlow] at hlowAccel
    rw [hhigh] at hhighAccel
    exact ⟨_, _, exec_convInstr .highResolution .g16 0x8000#16 s,
      exec_convInstr .highResolution .g16 0x7FFF#16 s, hlow, hlowAccel, hhigh, hhighAccel⟩

theorem driveSample_accelOut_toInt (m : ResMode) (v : FullScale) (raw : Word) (s : State) :
    (driveSample m v raw s).accelOut.toInt = (sampleOperand m raw).toInt * sensK v :=
  scale_sampleOperand_toInt m v raw

/-- Settles O33: the product is exact, so the four are one sample times 1, 2, 4 and 12. -/
theorem accelerationIsLinearInTheSensitivity :
    Obligations.AccelerationIsLinearInTheSensitivity := by
  intro m raw s
  refine ⟨_, _, _, _, exec_convInstr m .g2 raw s, exec_convInstr m .g4 raw s,
    exec_convInstr m .g8 raw s, exec_convInstr m .g16 raw s, ?_⟩
  simp only [driveSample_accelOut_toInt, sensK]
  omega

/-- At the codes of a mode and a scale, `Eval` is what the named conversion drives. -/
theorem driveEval_codes (m : ResMode) (v : FullScale) (raw : Word) (s : State) :
    driveEval (resCode m) (fsCode v) raw s = driveSample m v raw s := by
  rw [driveEval, eval_codes]
  rfl

theorem conversion_driveSample (m : ResMode) (v : FullScale) (raw : Word) (s : State) :
    (driveSample m v raw s).conversion = eval raw (fsCode v) (resCode m) := by
  rw [← driveEval_codes, conversion_driveEval]

theorem physicalValue_driveSample (m : ResMode) (v : FullScale) (raw : Word) (s : State) :
    (driveSample m v raw s).physicalValue =
      .ok (gOfCounts (driveSample m v raw s).accelOut) := by
  simp only [State.physicalValue, conversion_driveSample, eval_codes]
  rfl

/-- The counts of an exact product are the sample in the document's unit of g per digit. -/
theorem gOfCounts_scale_sampleOperand (m : ResMode) (v : FullScale) (raw : Word) :
    gOfCounts (scale (sampleOperand m raw) (sensK v)) =
      (sampleOperand m raw).toInt * sensitivity v := by
  rw [gOfCounts, scale_sampleOperand_toInt]
  push_cast
  rw [sensK_eq_sensitivity_div]
  ring

/-- Settles O29: the product is exact, and the counts it gives are worth the document's
sensitivity. -/
theorem physicalValueIsSampleTimesSensitivity :
    Obligations.PhysicalValueIsSampleTimesSensitivity := by
  intro m v raw s
  have hvalue := physicalValue_driveSample m v raw s
  exact ⟨_, exec_convInstr m v raw s, rfl, scale_sampleOperand_toInt m v raw, hvalue,
    hvalue.trans (congrArg Except.ok (gOfCounts_scale_sampleOperand m v raw))⟩

/-- Settles O35: `TO_PHYSICAL` is by definition the HighResolution conversion, whose padding
is 4. -/
theorem toPhysicalIsTheHighResolutionConversion :
    Obligations.ToPhysicalIsTheHighResolutionConversion := by
  constructor
  · intro raw v s
    exact ⟨rfl, _, exec_convInstr .highResolution v raw s,
      sampleOperand_eq_sshiftRight .highResolution raw,
      conversion_driveSample .highResolution v raw s⟩
  · intro s
    exact ⟨drives_convInstr (m := .highResolution) (v := .g2) s (by decide) (by decide),
      drives_convInstr (m := .normal) (v := .g2) s (by decide) (by decide)⟩

end Sys2Proof.Machine
end

section
/-!
PROOF. The operations by their codes: `Eval` written out (41 R103), and the reserved code (R122).
-/

namespace Sys2Proof.Machine

/-- Every code but the reserved one is a mode's (40 R87). -/
theorem exists_resCode_of_ne_reserved {rm : Code} (h : rm ≠ 0b11#2) : ∃ m, rm = resCode m := by
  obtain rfl | rfl | rfl | rfl := code_cases rm
  · exact ⟨.normal, rfl⟩
  · exact ⟨.highResolution, rfl⟩
  · exact ⟨.lowPower, rfl⟩
  · exact absurd rfl h

theorem padBits_eq_of_resCode (m : ResMode) :
    padBits m = if resCode m = 0b00#2 then 6 else if resCode m = 0b01#2 then 4 else 8 := by
  cases m <;> rfl

theorem sensK_eq_of_fsCode (v : FullScale) :
    (sensK v : Int) = if fsCode v = 0b00#2 then 1 else if fsCode v = 0b01#2 then 2
      else if fsCode v = 0b10#2 then 4 else 12 := by
  cases v <;> rfl

/-- Settles O26: the selected operation drives `Eval`, which is the error at the reserved code and
elsewhere the sample and the product of the mode and scale that the codes stand for. -/
theorem operationsAgreeWithEval : Obligations.OperationsAgreeWithEval := by
  intro raw fs rm s
  refine ⟨_, exec_decodeV20_v20 rm fs raw s, rfl, rfl, rfl, ?reserved, ?valid,
    conversion_driveEval rm fs raw s, decFs_eq_extract s.ctrl4In⟩
  case reserved =>
    rintro rfl
    exact ⟨rfl, rfl, rfl, driveEval_reportedError 0b11#2 fs raw s⟩
  case valid =>
    intro hrm
    have hreported := driveEval_reportedError rm fs raw s
    rw [if_neg hrm] at hreported
    obtain ⟨m, rfl⟩ := exists_resCode_of_ne_reserved hrm
    obtain ⟨v, rfl⟩ : ∃ v, fsCode v = fs := ⟨fsVariant fs, encFs_fsVariant fs⟩
    have hfield := sext_top_field_eq_sshiftRight raw (padBits m) (padBits_lt m)
    refine ⟨padBits m, padBits_eq_of_resCode m, sensK v, sensK_eq_of_fsCode v, ?_, ?_,
      errFlag_resCode m, hreported⟩
    · rw [driveEval_sampleOut, hfield]
    · rw [driveEval_codes]
      rfl

/-- Settles O19: the reserved operation is the selection of the reserved code, where `Eval` is the
error, and a V20 evaluation writes over the one before. -/
theorem reservedModeReportsTheError : Obligations.ReservedModeReportsTheError := by
  intro fs raw s
  refine ⟨encode_selectOp 0b11#2 fs raw, decodeV20_v20 0b11#2 fs raw, by decide,
    driveEval 0b11#2 fs raw s, exec_selectOp 0b11#2 fs raw s, rfl, rfl, rfl, rfl, rfl, rfl,
    driveEval_reportedError 0b11#2 fs raw s, conversion_driveEval 0b11#2 fs raw s, ?_⟩
  intro i hi
  obtain ⟨rm, fs', raw', rfl⟩ := selectOp_of_usesConverter hi
  exact ⟨_, _, exec_selectOp rm fs' raw' _, exec_selectOp rm fs' raw' s, rfl, rfl, rfl⟩

end Sys2Proof.Machine
end

section
/-!
PROOF. The twelve conversion rules (41 R110 to R121) are one rule of the mode and the scale.
-/

namespace Sys2Proof.Machine

/-- The numbers of the rule of `CONV.<MODE>.<FS>`, with the example at the raw word `w`: each range
is that of `N` bits, times the sensitivity for the acceleration, and one digit is `2^S`. -/
def conversionRule (m : ResMode) (v : FullScale) (w : Word) : ConversionRule where
  op := convInstr m v
  resMode := resCode m
  fs := fsCode v
  shift := padBits m
  k := sensK v
  sampleMin := -2 ^ (sigBits m - 1)
  sampleMax := 2 ^ (sigBits m - 1) - 1
  accelMin := -2 ^ (sigBits m - 1) * sensK v
  accelMax := (2 ^ (sigBits m - 1) - 1) * sensK v
  lowest := (sampleOperand m 0x8000#16, scale (sampleOperand m 0x8000#16) (sensK v))
  highest := (sampleOperand m 0x7FFF#16, scale (sampleOperand m 0x7FFF#16) (sensK v))
  accelOfMinusOne := scale 0xFFFF#16 (sensK v)
  lastZero := BitVec.ofNat 16 (2 ^ padBits m - 1)
  oneDigit := BitVec.ofNat 16 (2 ^ padBits m)
  worked := (w, sampleOperand m w, scale (sampleOperand m w) (sensK v))

theorem sampleOperand_oneDigit (m : ResMode) :
    sampleOperand m (BitVec.ofNat 16 (2 ^ padBits m)) = 0x0001#16 := by
  cases m <;> decide

theorem scale_one (v : FullScale) : scale 0x0001#16 (sensK v) = BitVec.ofNat 16 (sensK v) := by
  cases v <;> decide

/-- The words up to the last one below a digit are read as numbers from zero to below one digit. -/
theorem toInt_range_of_le_lastZero {m : ResMode} {raw : Word}
    (h : raw ≤ BitVec.ofNat 16 (2 ^ padBits m - 1)) :
    0 ≤ raw.toInt ∧ raw.toInt < 2 ^ padBits m := by
  have hlast : (BitVec.ofNat 16 (2 ^ padBits m - 1)).toNat = 2 ^ padBits m - 1 := by
    cases m <;> rfl
  have hdigit : 0 < 2 ^ padBits m ∧ 2 ^ padBits m ≤ 256 := by
    cases m <;> decide
  rw [BitVec.le_def, hlast] at h
  have hlt : raw.toNat < 2 ^ padBits m := by omega
  rw [BitVec.toInt_eq_toNat_of_lt (by omega)]
  exact ⟨Int.natCast_nonneg _, by exact_mod_cast hlt⟩

theorem conversionRule_holds (m : ResMode) (v : FullScale) (w : Word) :
    (conversionRule m v w).Holds where
  encoding raw := by
    have hencode := encode_selectOp (resCode m) (fsCode v) raw
    rw [← convInstr_eq_selectOp] at hencode
    exact ⟨hencode, decodeV20_codes m v raw⟩
  result raw s := by
    have hshift := sampleOperand_eq_sshiftRight m raw
    have hfield := sext_top_field_eq_sshiftRight raw (padBits m) (padBits_lt m)
    have hproduct := scale_sampleOperand_toInt m v raw
    obtain ⟨hmin, hmax⟩ := sampleOperand_toInt_range m raw
    have hk : (0 : Int) ≤ sensK v := Int.natCast_nonneg _
    exact ⟨_, exec_convInstr m v raw s, rfl, rfl, rfl, hshift.trans hfield.symm, hshift, rfl,
      hproduct, errFlag_resCode m, hmin, hmax,
      (mul_le_mul_of_nonneg_right hmin hk).trans_eq hproduct.symm,
      hproduct.trans_le (mul_le_mul_of_nonneg_right hmax hk)⟩
  corners s :=
    ⟨drives_convInstr s rfl rfl, drives_convInstr s rfl rfl,
      drives_convInstr s (sampleOperand_minusOne m) rfl,
      drives_convInstr s (sampleOperand_oneDigit m) (scale_one v), drives_convInstr s rfl rfl⟩
  zeros raw s h := by
    obtain ⟨h0, hlt⟩ := toInt_range_of_le_lastZero h
    exact lessThanOneDigitGivesZero m v raw s h0 hlt

/-- Settles O16: the four are the rules of the HighResolution mode, their numbers its values. -/
theorem highResolutionConversionsFollowTheirRules :
    Obligations.HighResolutionConversionsFollowTheirRules :=
  ⟨conversionRule_holds .highResolution .g2 0x0010#16,
    conversionRule_holds .highResolution .g4 0xFFF0#16,
    conversionRule_holds .highResolution .g8 0x7FF0#16,
    conversionRule_holds .highResolution .g16 0x8000#16⟩

/-- Settles O17: the four are the rules of the Normal mode, their numbers its values. -/
theorem normalConversionsFollowTheirRules : Obligations.NormalConversionsFollowTheirRules :=
  ⟨conversionRule_holds .normal .g2 0x0040#16, conversionRule_holds .normal .g4 0xFFC0#16,
    conversionRule_holds .normal .g8 0x4000#16, conversionRule_holds .normal .g16 0x7FFF#16⟩

/-- Settles O18: the four are the rules of the LowPower mode, their numbers its values. -/
theorem lowPowerConversionsFollowTheirRules : Obligations.LowPowerConversionsFollowTheirRules :=
  ⟨conversionRule_holds .lowPower .g2 0x0100#16, conversionRule_holds .lowPower .g4 0x8000#16,
    conversionRule_holds .lowPower .g8 0x00FF#16, conversionRule_holds .lowPower .g16 0xFF00#16⟩

end Sys2Proof.Machine
end

section
/-!
PROOF. The one error (60 R141 to R143): settled ports say when `err` is 1, what the data outputs then
are, and that `fs_field` does not depend on it; every operation settles the ports.
-/

namespace Sys2Proof.Machine

theorem errFlag_eq_true_iff (rm : Code) : errFlag rm = true ↔ rm = 0b11#2 :=
  beq_iff_eq

theorem err_iff_of_settled {s : State} (h : Settled s) : s.err = true ↔ s.resMode = 0b11#2 := by
  rw [h.flag, errFlag_eq_true_iff]

/-- At the reserved code `Eval` is the error, and the outputs for an error are zeros. -/
theorem outputs_zero_of_settled {s : State} (h : Settled s) (hrm : s.resMode = 0b11#2) :
    s.sampleOut = 0x0000#16 ∧ s.accelOut = 0x0000#16 := by
  have hdata := h.data
  rw [hrm, eval_reserved] at hdata
  exact Prod.mk.inj hdata

theorem fsField_eq_extract_of_settled {s : State} (h : Settled s) :
    s.fsField = s.ctrl4In.extractLsb' 4 2 := by
  rw [h.field, decFs_eq_extract]

theorem reportedError_cases_of_settled {s : State} (h : Settled s) :
    s.reportedError = none ∨
      s.reportedError = some (.unrecognizedBitPattern .resMode 0b11#2) := by
  have hreported := reportedError_of_flag h.flag
  by_cases hrm : s.resMode = 0b11#2
  · exact .inr (hreported.trans (if_pos hrm))
  · exact .inl (hreported.trans (if_neg hrm))

/-- Settles O37: every operation settles the ports, and then `err` is the flag of `res_mode`. -/
theorem errIsSetExactlyByTheReservedMode : Obligations.ErrIsSetExactlyByTheReservedMode := by
  intro i s
  obtain ⟨t, hexec, hsettled⟩ := everyOperationCompletes i s
  exact ⟨t, hexec, err_iff_of_settled hsettled⟩

/-- Settles O38: with `err` = 1 the mode is the reserved one, where a consumer reads `Eval`, which
is the error. -/
theorem outputsAreZeroOnError : Obligations.OutputsAreZeroOnError := by
  intro i s t hexec herr
  have hsettled := exec_settles hexec
  have hrm := (err_iff_of_settled hsettled).mp herr
  obtain ⟨hsample, haccel⟩ := outputs_zero_of_settled hsettled hrm
  have hread := conversion_of_settled hsettled
  rw [hrm, eval_reserved] at hread
  exact ⟨hsample, haccel, hread⟩

/-- Settles O39: settled ports report the reserved mode's error or none, and in both cases
`fs_field` is the field of the byte. -/
theorem fsFieldIsValidInEveryEvaluation : Obligations.FsFieldIsValidInEveryEvaluation := by
  intro i s
  obtain ⟨t, hexec, hsettled⟩ := everyOperationCompletes i s
  exact ⟨t, hexec, reportedError_cases_of_settled hsettled, fsField_eq_extract_of_settled hsettled⟩

end Sys2Proof.Machine
end
